-- ==== Sys2Proof/Word.lean ====
section
/-! DEFINITION. The words and the names of the core (spec/00 R11, R14): bytes, bits, switch addresses, snapshots, and the
closed name sets of joysticks, joystick switches and dispatcher slots. -/

namespace Sys2Proof

/-- A byte (R14). -/
abbrev Byte := BitVec 8

/-- A bit read as a Bool, true = 1 (R11). -/
abbrev Bit := Bool

/-- A switch address in the layout of R61: X in bits 3:0, Y in bits 5:4, reserved bit 6, sentinel bit 7. -/
abbrev SwitchAddress := BitVec 8

/-- A joystick snapshot in the layout of R64, from bit 0: U, D, L, R, B1, B2. -/
abbrev Snapshot := BitVec 6

/-- A serial frame as the 11-bit word W of R59, W[0] the sample that arrives first. -/
abbrev FrameWord := BitVec 11

/-- The two joysticks (R14). -/
inductive JoyId where
  | l
  | r
deriving DecidableEq, Repr

/-- The ten switch names of one joystick (R14, R133). -/
inductive JoyName where
  | u
  | d
  | l
  | r
  | xul
  | xur
  | xdr
  | xdl
  | b1
  | b2
deriving DecidableEq, Repr

/-- The three components the dispatcher can run (R14). -/
inductive Slot where
  | joyL
  | joyR
  | interp
deriving DecidableEq, Repr

/-- The nine direction cases of R70. -/
inductive DirCase where
  | none
  | u
  | d
  | l
  | r
  | ul
  | ur
  | dr
  | dl
deriving DecidableEq, Repr

end Sys2Proof
end

