-- ==== Sys2Proof/Config.lean ====
section
/-! DEFINITION. What is fixed before the core runs: the parameters of R8 and R9 as one plain record, the names of the
checks of R10, the test configuration EXCFG of spec/95, and the model's free value. -/

namespace Sys2Proof

/-- One entry of SCAN_TABLE (R117): `v0` is read when the extended flag is clear, `v1` when it is set. -/
inductive ScanEntry where
  | setRelease
  | setExtended
  | resolve (v0 v1 : List SwitchAddress)
  | ignore
deriving DecidableEq, Repr

/-- The ten switch addresses of one joystick (R133). -/
structure JoyTable where
  u : SwitchAddress
  d : SwitchAddress
  l : SwitchAddress
  r : SwitchAddress
  xul : SwitchAddress
  xur : SwitchAddress
  xdr : SwitchAddress
  xdl : SwitchAddress
  b1 : SwitchAddress
  b2 : SwitchAddress
deriving DecidableEq, Repr

/-- DISPATCH_ORDER (R9): the component of slot 0, of slot 1 and of slot 2. -/
structure Order where
  first : Slot
  second : Slot
  third : Slot
deriving DecidableEq, Repr

/-- SAMPLE_EDGE (R9); no rule reads it. -/
inductive SampleEdge where
  | falling
  | rising
deriving DecidableEq, Repr

/-- The configuration of R9 with the capacity C of R8. `scanTable` lists the recognised codes; a byte it does not list is
`ignore` (R117; log 6). -/
structure Configuration where
  cap : Nat
  scanTable : List (Byte × ScanEntry)
  relCode : Byte
  extCodeA : Byte
  extCodeB : Byte
  joyL : JoyTable
  joyR : JoyTable
  order : Order
  edgeLoss : Bool
  sampleEdge : SampleEdge
deriving DecidableEq, Repr

/-- The named checks of R10, in its order. -/
inductive ConfigCheck where
  | cap
  | prefixDistinct
  | prefixTags
  | resolveLen
  | reservedBit
  | joyNoSentinel
  | order
deriving DecidableEq, Repr

/-- DESIGN CHOICE (log 8): the byte a buffer slot holds at power-up, for each power-up and each slot. R25 and U7 leave it
open ("any byte"), so it has no body: nothing can be proved of its value. -/
opaque Config.slotAtPowerUp : Nat → Nat → Byte

/-- EXCFG, the spec's own test configuration (spec/95 section 1). -/
def excfg : Configuration where
  cap := 254
  scanTable :=
    [ (0xF0, .setRelease), (0xE0, .setExtended), (0xE1, .setExtended),
      (0x1C, .resolve [0x01, 0x2C] [0x01, 0x2C]),
      (0x75, .resolve [0x17] [0x3E, 0x06]),
      (0x12, .resolve [0x30] [0x30]),
      (0x11, .resolve [] []),
      (0x29, .resolve [0x0F, 0x80] [0x0F, 0x80]) ]
  relCode := 0xF0
  extCodeA := 0xE0
  extCodeB := 0xE1
  joyL := ⟨0x02, 0x03, 0x04, 0x05, 0x09, 0x0A, 0x0B, 0x0D, 0x10, 0x11⟩
  joyR := ⟨0x32, 0x33, 0x34, 0x35, 0x39, 0x3A, 0x3B, 0x3D, 0x20, 0x21⟩
  order := ⟨.joyL, .joyR, .interp⟩
  edgeLoss := false
  sampleEdge := .falling

end Sys2Proof
end

