-- ==== Sys2Proof/Machine/Operands.lean ====
section
/-! DEFINITION. Every operand form of the core (spec/30 R59 to R70, spec/40 R81, R82, R92, spec/44 R136): the fields of a
switch address, the X remap and its inverse, the select word, frame fields and parity, snapshots and direction cases,
table look-ups, the driver calls an operation makes, and the configuration checks of R10. -/

namespace Sys2Proof

/-! ### Switch addresses -/

/-- Logical X, `a[3:0]` (R61). -/
def addrX (a : SwitchAddress) : BitVec 4 := a.extractLsb' 0 4

/-- Logical Y, `a[5:4]` (R61). -/
def addrY (a : SwitchAddress) : BitVec 2 := a.extractLsb' 4 2

/-- The sentinel bit `a[7]` (R62). -/
def isSentinel (a : SwitchAddress) : Bool := a.getLsbD 7

/-- The reserved bit `a[6]` (R61). -/
def reservedBit (a : SwitchAddress) : Bool := a.getLsbD 6

/-- `addr(x, y)` of R61. -/
def mkAddr (x : BitVec 4) (y : BitVec 2) : SwitchAddress := 0#2 ++ y ++ x

/-- The number of crosspoint (x, y) among the 64 (R40): `{y, x}`. -/
def cell (x : BitVec 4) (y : BitVec 2) : BitVec 6 := y ++ x

/-- The crosspoint a switch address names. -/
def addrCell (a : SwitchAddress) : BitVec 6 := cell (addrX a) (addrY a)

/-- REMAP of R81. -/
def remap (x : BitVec 4) : BitVec 4 :=
  if 6#4 ≤ x ∧ x ≤ 11#4 then x + 2#4 else if x = 12#4 ∨ x = 13#4 then x - 6#4 else x

/-- DECODE of R82: the array's own decode of the X select code. -/
def decodeX (c : BitVec 4) : BitVec 4 :=
  if 8#4 ≤ c ∧ c ≤ 13#4 then c - 2#4 else if c = 6#4 ∨ c = 7#4 then c + 6#4 else c

/-- The select word while the strobe is high (R63, R92): `{XSTROBE = 1, XDATA = on, AY, AX}`. -/
def selWord (on : Bool) (a : SwitchAddress) : Byte :=
  1#1 ++ BitVec.ofBool on ++ addrY a ++ remap (addrX a)

/-! ### Serial frames -/

/-- The number of 1 bits (R11). -/
def popcount {n : Nat} (v : BitVec n) : Nat := (List.range n).countP fun i => v.getLsbD i

/-- The start sample `W[0]` (R59). -/
def frameStart (w : FrameWord) : Bit := w.getLsbD 0

/-- The data byte `W[8:1]` (R66). -/
def frameData (w : FrameWord) : Byte := w.extractLsb' 1 8

/-- The parity sample `W[9]` (R59). -/
def frameParity (w : FrameWord) : Bit := w.getLsbD 9

/-- The stop sample `W[10]` (R59). -/
def frameStop (w : FrameWord) : Bit := w.getLsbD 10

/-- Whether the nine samples `W[9:1]` hold an odd number of ones (R59). -/
def frameOdd (w : FrameWord) : Bool := popcount (w.extractLsb' 1 9) % 2 == 1

/-- Validity of a frame word (R59). -/
def frameValid (w : FrameWord) : Bool := !frameStart w && frameStop w && frameOdd w

/-- The frame word with start 0 and stop 1 that carries data byte `d` and parity sample `p` (R59). -/
def mkFrame (d : Byte) (p : Bit) : FrameWord := 1#1 ++ BitVec.ofBool p ++ d ++ 0#1

/-- The valid frame word of a byte (R68). -/
def frameOfByte (b : Byte) : FrameWord := mkFrame b (popcount b % 2 == 0)

/-- `dec.data[k] <- v` (R105). -/
def setBit (x : Byte) (k : Nat) (v : Bit) : Byte :=
  if v then x ||| (1#8 <<< k) else x &&& ~~~(1#8 <<< k)

/-! ### Joysticks -/

/-- The snapshot of six raw, active-low lines (R69, R134). -/
def sampleLines (raw : BitVec 6) : Snapshot := ~~~raw

/-- The direction nibble `s[3:0]` (R64). -/
def nibble (s : Snapshot) : BitVec 4 := s.extractLsb' 0 4

/-- Button 1, `s[4]` (R64). -/
def button1 (s : Snapshot) : Bit := s.getLsbD 4

/-- Button 2, `s[5]` (R64). -/
def button2 (s : Snapshot) : Bit := s.getLsbD 5

/-- The snapshot with the given buttons and direction bits, in the layout of R64. -/
def mkSnap (b2 b1 r l d u : Bit) : Snapshot :=
  BitVec.ofBool b2 ++ BitVec.ofBool b1 ++ BitVec.ofBool r ++ BitVec.ofBool l ++ BitVec.ofBool d ++ BitVec.ofBool u

/-- The seven invalid nibbles (R70): U and D both set, or L and R both set. -/
def nibbleInvalid (n : BitVec 4) : Bool :=
  (n.getLsbD 0 && n.getLsbD 1) || (n.getLsbD 2 && n.getLsbD 3)

/-- `Case(s)` of R70, on the direction nibble. -/
def dirCase (n : BitVec 4) : DirCase :=
  if n = 0b0001#4 then .u
  else if n = 0b0010#4 then .d
  else if n = 0b0100#4 then .l
  else if n = 0b1000#4 then .r
  else if n = 0b0101#4 then .ul
  else if n = 0b1001#4 then .ur
  else if n = 0b1010#4 then .dr
  else if n = 0b0110#4 then .dl
  else .none

/-- DIRNAMES of R133. -/
def dirNames : List JoyName := [.u, .d, .l, .r, .xul, .xur, .xdr, .xdl]

/-- The REQ table of R136. -/
def req : DirCase → List JoyName
  | .none => []
  | .u => [.u]
  | .d => [.d]
  | .l => [.l]
  | .r => [.r]
  | .ul => [.u, .l, .xul]
  | .ur => [.u, .r, .xur]
  | .dr => [.d, .r, .xdr]
  | .dl => [.d, .l, .xdl]

/-- The address of one switch name in a joystick's table. -/
def tableAddr (t : JoyTable) : JoyName → SwitchAddress
  | .u => t.u
  | .d => t.d
  | .l => t.l
  | .r => t.r
  | .xul => t.xul
  | .xur => t.xur
  | .xdr => t.xdr
  | .xdl => t.xdl
  | .b1 => t.b1
  | .b2 => t.b2

/-- The address table of one joystick. -/
def joyTable (cfg : Configuration) : JoyId → JoyTable
  | .l => cfg.joyL
  | .r => cfg.joyR

/-- `JOY_ADDR[j][n]` (R133). -/
def joyAddr (cfg : Configuration) (j : JoyId) (n : JoyName) : SwitchAddress := tableAddr (joyTable cfg j) n

/-- A driver call `(on, a)` (R83). -/
abbrev DriverCall := Bool × SwitchAddress

/-- The open phase of R136: the direction names outside REQ, in the order of DIRNAMES. -/
def openCalls (cfg : Configuration) (j : JoyId) (c : DirCase) : List DriverCall :=
  (dirNames.filter fun n => !(req c).contains n).map fun n => (false, joyAddr cfg j n)

/-- The close phase of R136: the direction names in REQ, in the order of DIRNAMES. -/
def closeCalls (cfg : Configuration) (j : JoyId) (c : DirCase) : List DriverCall :=
  (dirNames.filter fun n => (req c).contains n).map fun n => (true, joyAddr cfg j n)

/-- The driver calls of the change branch (R136): the two buttons, the open phase, the close phase. -/
def joyCalls (cfg : Configuration) (j : JoyId) (s : Snapshot) : List DriverCall :=
  [(button1 s, joyAddr cfg j .b1), (button2 s, joyAddr cfg j .b2)]
    ++ openCalls cfg j (dirCase (nibble s)) ++ closeCalls cfg j (dirCase (nibble s))

/-! ### Scan codes -/

/-- The first entry a list of codes gives a byte; a byte it does not list is `ignore` (R117). -/
def scanLookup : List (Byte × ScanEntry) → Byte → ScanEntry
  | [], _ => .ignore
  | (c, e) :: rest, b => if c = b then e else scanLookup rest b

/-- `SCAN_TABLE(b)` (R117). -/
def scan (cfg : Configuration) (b : Byte) : ScanEntry := scanLookup cfg.scanTable b

/-- The address list of an entry that the extended flag chooses (R121, R125). -/
def entryAddrs (ext : Bit) : ScanEntry → List SwitchAddress
  | .resolve v0 v1 => if ext then v1 else v0
  | _ => []

/-- The driver calls of INTERP_RESOLVE (R121, R122): `on = !rel`, sentinels skipped, list order. -/
def resolveCalls (rel ext : Bit) (e : ScanEntry) : List DriverCall :=
  ((entryAddrs ext e).filter fun a => !isSentinel a).map fun a => (!rel, a)

/-! ### The matrix reset -/

/-- The 64 driver calls of MATRIX_RESET (R89): x outer, y inner. -/
def matrixCalls : List DriverCall :=
  (List.range 16).flatMap fun x => (List.range 4).map fun y => (false, mkAddr (BitVec.ofNat 4 x) (BitVec.ofNat 2 y))

/-! ### Dispatch order and buffer size -/

/-- `DISPATCH_ORDER[i]` (R31). -/
def orderAt (o : Order) (i : Fin 3) : Slot :=
  match i with
  | 0 => o.first
  | 1 => o.second
  | 2 => o.third

/-- N = C + 1, the number of buffer slots (R25, R93). -/
def slotCount (cfg : Configuration) : Nat := cfg.cap + 1

/-! ### The configuration checks of R10 -/

/-- All addresses of a scan entry. -/
def entryAll : ScanEntry → List SwitchAddress
  | .resolve v0 v1 => v0 ++ v1
  | _ => []

/-- All ten addresses of a joystick table. -/
def tableAll (t : JoyTable) : List SwitchAddress :=
  [t.u, t.d, t.l, t.r, t.xul, t.xur, t.xdr, t.xdl, t.b1, t.b2]

/-- The entries the table gives the bytes it lists; every other byte is `ignore`, which meets every check. -/
def scanEntries (cfg : Configuration) : List (Byte × ScanEntry) :=
  cfg.scanTable.map fun p => (p.1, scan cfg p.1)

/-- `cfg_prefix_tags` for one byte that is tagged as a prefix. -/
def tagAllowed (cfg : Configuration) (p : Byte × ScanEntry) : Bool :=
  match p.2 with
  | .setRelease => p.1 == cfg.relCode
  | .setExtended => p.1 == cfg.extCodeA || p.1 == cfg.extCodeB
  | _ => true

/-- `cfg_resolve_len` for one entry. -/
def lengthAllowed : ScanEntry → Bool
  | .resolve v0 v1 => decide (v0.length ≤ 2) && decide (v1.length ≤ 2)
  | _ => true

/-- Whether a configuration passes one check of R10. -/
def passes (cfg : Configuration) : ConfigCheck → Bool
  | .cap => decide (1 ≤ cfg.cap)
  | .prefixDistinct =>
    cfg.relCode != cfg.extCodeA && cfg.relCode != cfg.extCodeB && cfg.extCodeA != cfg.extCodeB
  | .prefixTags =>
    scan cfg cfg.relCode == .setRelease && scan cfg cfg.extCodeA == .setExtended
      && scan cfg cfg.extCodeB == .setExtended && (scanEntries cfg).all (tagAllowed cfg)
  | .resolveLen => (scanEntries cfg).all fun p => lengthAllowed p.2
  | .reservedBit =>
    ((scanEntries cfg).all fun p => (entryAll p.2).all fun a => !reservedBit a)
      && (tableAll cfg.joyL ++ tableAll cfg.joyR).all fun a => !reservedBit a
  | .joyNoSentinel => (tableAll cfg.joyL ++ tableAll cfg.joyR).all fun a => !isSentinel a
  | .order =>
    cfg.order.first != cfg.order.second && cfg.order.first != cfg.order.third
      && cfg.order.second != cfg.order.third

/-- The checks of R10 in its order. -/
def allChecks : List ConfigCheck :=
  [.cap, .prefixDistinct, .prefixTags, .resolveLen, .reservedBit, .joyNoSentinel, .order]

/-- The first check a configuration fails, if any (R10, R159). -/
def failedCheck (cfg : Configuration) : Option ConfigCheck := allChecks.find? fun c => !passes cfg c

/-- A configuration is well-formed when every check holds (R10). -/
def cfgWellFormed (cfg : Configuration) : Bool := allChecks.all fun c => passes cfg c

end Sys2Proof
end

