-- ==== Sys2Proof/Syntax.lean ====
section
/-! DEFINITION. The operation set of R2 as one inductive: one constructor per row of spec/opcode_table.json, in the table's
order, with the operands the row's rule gives it. -/

namespace Sys2Proof

/-- An operation (R2, R71). The bits a row's encoding fixes are in the constructor; its other bits are operands. -/
inductive Instr where
  /-- EDGE_START (R104): the sample at frame position 1. -/
  | edgeStart (v : Bit)
  /-- EDGE_DATA (R105): the sample of data bit `k`, at frame position `k + 2`. -/
  | edgeData (k : Fin 8) (v : Bit)
  /-- EDGE_PARITY (R106): the sample at frame position 10. -/
  | edgeParity (v : Bit)
  /-- EDGE_STOP (R107): the sample at frame position 11. -/
  | edgeStop (v : Bit)
  /-- FRAME_ACCEPT (R107, R108): the end of the valid frame with data byte `d` and parity sample `p`. -/
  | frameAccept (d : Byte) (p : Bit)
  /-- FRAME_REJECT (R107, R108): the end of the invalid frame `w`. -/
  | frameReject (w : FrameWord)
  /-- PUSH (R95). -/
  | push (b : Byte)
  /-- POP (R97). -/
  | pop
  /-- INTERP_EMPTY (R118). -/
  | interpEmpty
  /-- INTERP_REL (R119). -/
  | interpRel
  /-- INTERP_EXT_A (R120). -/
  | interpExtA
  /-- INTERP_EXT_B (R120). -/
  | interpExtB
  /-- INTERP_RESOLVE (R121) of the popped byte `b`. -/
  | interpResolve (b : Byte)
  /-- INTERP_UNRECOGNIZED (R124) of the popped byte `b`. -/
  | interpUnrecognized (b : Byte)
  /-- JOYPOLL_SAME (R135) of joystick `j` with snapshot `s`. -/
  | joypollSame (j : JoyId) (s : Snapshot)
  /-- JOYPOLL_NONE (R137), nibble 0000. -/
  | joypollNone (j : JoyId) (b1 b2 : Bit)
  /-- JOYPOLL_NONE_INVALID_UD (R137), U and D set. -/
  | joypollNoneInvalidUd (j : JoyId) (l r b1 b2 : Bit)
  /-- JOYPOLL_NONE_INVALID_LR (R137), L and R set. -/
  | joypollNoneInvalidLr (j : JoyId) (u d b1 b2 : Bit)
  /-- JOYPOLL_U (R138). -/
  | joypollU (j : JoyId) (b1 b2 : Bit)
  /-- JOYPOLL_D (R139). -/
  | joypollD (j : JoyId) (b1 b2 : Bit)
  /-- JOYPOLL_L (R140). -/
  | joypollL (j : JoyId) (b1 b2 : Bit)
  /-- JOYPOLL_R (R141). -/
  | joypollR (j : JoyId) (b1 b2 : Bit)
  /-- JOYPOLL_UL (R142). -/
  | joypollUl (j : JoyId) (b1 b2 : Bit)
  /-- JOYPOLL_UR (R143). -/
  | joypollUr (j : JoyId) (b1 b2 : Bit)
  /-- JOYPOLL_DR (R144). -/
  | joypollDr (j : JoyId) (b1 b2 : Bit)
  /-- JOYPOLL_DL (R145). -/
  | joypollDl (j : JoyId) (b1 b2 : Bit)
  /-- SETSWITCH_ON (R84) of the address whose low seven bits are `a` and whose bit 7 is 0. -/
  | setswitchOn (a : BitVec 7)
  /-- SETSWITCH_OFF (R84). -/
  | setswitchOff (a : BitVec 7)
  /-- SETSWITCH_SENTINEL (R86) of the address whose low seven bits are `a` and whose bit 7 is 1. -/
  | setswitchSentinel (on : Bit) (a : BitVec 7)
  /-- MATRIX_RESET (R89). -/
  | matrixReset
  /-- DISPATCH_JOY_L (R151). -/
  | dispatchJoyL
  /-- DISPATCH_JOY_R (R151). -/
  | dispatchJoyR
  /-- DISPATCH_INTERP (R151). -/
  | dispatchInterp
  /-- RESET (R175). -/
  | reset
deriving DecidableEq, Repr

end Sys2Proof
end

