-- ==== Sys2Proof/WellFormed.lean ====
section
/-! DEFINITION. The side conditions of the opcode table that an operation's own operands must meet, each under a name. The
selecting state (the position, the previous snapshot, the slot) is checked where the operation runs. -/

namespace Sys2Proof

/-- The named checks on an operation's operands. -/
inductive InstrCheck where
  /-- FRAME_ACCEPT needs an odd number of ones in data and parity (R108). -/
  | acceptOdd
  /-- FRAME_REJECT needs an invalid frame word (R108). -/
  | rejectInvalid
  /-- Nibble 1111 is read as JOYPOLL_NONE_INVALID_UD, so JOYPOLL_NONE_INVALID_LR has not both U and D (R137; log 2). -/
  | lrNotAll
  /-- INTERP_RESOLVE needs a byte that SCAN_TABLE resolves (R121). -/
  | resolveCode
  /-- INTERP_UNRECOGNIZED needs a byte that SCAN_TABLE ignores (R124). -/
  | ignoredCode
deriving DecidableEq, Repr

/-- Whether an entry is a `resolve`. -/
def isResolve : ScanEntry → Bool
  | .resolve _ _ => true
  | _ => false

/-- The check an operation fails under a configuration, if any. -/
def failedInstrCheck (cfg : Configuration) : Instr → Option InstrCheck
  | .frameAccept d p => if frameValid (mkFrame d p) then none else some .acceptOdd
  | .frameReject w => if frameValid w then some .rejectInvalid else none
  | .joypollNoneInvalidLr _ u d _ _ => if u && d then some .lrNotAll else none
  | .interpResolve b => if isResolve (scan cfg b) then none else some .resolveCode
  | .interpUnrecognized b => if scan cfg b = .ignore then none else some .ignoredCode
  | _ => none

/-- An operation is well-formed when it fails no check. -/
def WellFormed (cfg : Configuration) (i : Instr) : Bool := (failedInstrCheck cfg i).isNone

end Sys2Proof
end

