-- ==== Sys2Proof/Decode.lean ====
section
/-! DEFINITION. The selectors of R71 as a decoder, and the encoder after it. Each format of spec/30 has its own decoder; the
32-bit operation word (DESIGN CHOICE, log 2) carries one format's bits in bits 15:0, the operands the format leaves outside
its bits (the sample, `on`, the joystick, "equals prev") in bits 23:16, and the format's number in bits 31:24. Format number
0 is the bare bits of an opcode-table row. -/

namespace Sys2Proof

/-- Why bits select no operation. -/
inductive DecodeError where
  /-- No format has this number. -/
  | format
  /-- A bit outside the format is set. -/
  | reservedBits
  /-- A bit position outside 1 to 11, which R20 says never occurs. -/
  | position
  /-- A slot outside 0 to 2, which R31 does not have. -/
  | slot
deriving DecidableEq, Repr

/-! ### The formats -/

/-- SEL-POS (R71a, R103): the position the next sample fills, and the sample. -/
def decodeEdge (pos : Nat) (v : Bit) : Except DecodeError Instr :=
  if pos = 1 then .ok (.edgeStart v)
  else if pos = 10 then .ok (.edgeParity v)
  else if pos = 11 then .ok (.edgeStop v)
  else if h : 2 ≤ pos ∧ pos ≤ 9 then .ok (.edgeData ⟨pos - 2, by omega⟩ v)
  else .error .position

/-- F-FRAME (R59, R108): the two outcomes of a whole frame. -/
def decodeFrame (w : FrameWord) : Instr :=
  if frameValid w then .frameAccept (frameData w) (frameParity w) else .frameReject w

/-- F-SCAN (R67, R71c): a popped byte through SCAN_TABLE. Both extended codes have the tag SetExtended; the row is INTERP_EXT_B
for EXT_CODE_B and INTERP_EXT_A otherwise. -/
def decodeScan (cfg : Configuration) (b : Byte) : Instr :=
  match scan cfg b with
  | .setRelease => .interpRel
  | .setExtended => if b = cfg.extCodeB then .interpExtB else .interpExtA
  | .resolve _ _ => .interpResolve b
  | .ignore => .interpUnrecognized b

/-- SEL-POP and F-SCAN (R71c): the result of POP. -/
def decodePop (cfg : Configuration) : Option Byte → Instr
  | none => .interpEmpty
  | some b => decodeScan cfg b

/-- F-SNAP (R64, R70, R71d): a snapshot, and whether it equals the previous one. -/
def decodeSnap (j : JoyId) (same : Bool) (s : Snapshot) : Instr :=
  let b1 := button1 s
  let b2 := button2 s
  if same then .joypollSame j s
  else if s.getLsbD 0 && s.getLsbD 1 then .joypollNoneInvalidUd j (s.getLsbD 2) (s.getLsbD 3) b1 b2
  else if s.getLsbD 2 && s.getLsbD 3 then .joypollNoneInvalidLr j (s.getLsbD 0) (s.getLsbD 1) b1 b2
  else
    match dirCase (nibble s) with
    | .none => .joypollNone j b1 b2
    | .u => .joypollU j b1 b2
    | .d => .joypollD j b1 b2
    | .l => .joypollL j b1 b2
    | .r => .joypollR j b1 b2
    | .ul => .joypollUl j b1 b2
    | .ur => .joypollUr j b1 b2
    | .dr => .joypollDr j b1 b2
    | .dl => .joypollDl j b1 b2

/-- F-SWADDR (R61, R71e): a driver call. -/
def decodeSwitch (on : Bool) (a : SwitchAddress) : Instr :=
  let low := a.extractLsb' 0 7
  if isSentinel a then .setswitchSentinel on low else if on then .setswitchOn low else .setswitchOff low

/-- SEL-SLOT (R71b, R151): the component the dispatcher's slot names. -/
def decodeSlot : Slot → Instr
  | .joyL => .dispatchJoyL
  | .joyR => .dispatchJoyR
  | .interp => .dispatchInterp

/-- The bare bits of an opcode-table row (log 2): bits above bit 7 are a frame word; otherwise the row with the most fixed
bits takes them, the earlier row of the table where two are equal, with the sample 0, joystick L, a changed snapshot and
`on` = 0 for the operands the bits do not carry. -/
def decodeBare (p : BitVec 16) : Except DecodeError Instr :=
  if 2048#16 ≤ p then .error .reservedBits
  else if 256#16 ≤ p then .ok (decodeFrame (p.extractLsb' 0 11))
  else if p = 1#16 ∨ p = 10#16 ∨ p = 11#16 then decodeEdge p.toNat false
  else if p < 64#16 then .ok (decodeSnap .l false (p.extractLsb' 0 6))
  else .ok (decodeSwitch false (p.extractLsb' 0 8))

/-! ### The operation word -/

/-- The numbers of the formats (log 2). -/
def tagBare : Nat := 0
def tagPos : Nat := 1
def tagFrame : Nat := 2
def tagPush : Nat := 3
def tagPop : Nat := 4
def tagEmpty : Nat := 5
def tagScan : Nat := 6
def tagSnap : Nat := 7
def tagSwitch : Nat := 8
def tagSlot : Nat := 9
def tagMatrix : Nat := 10
def tagReset : Nat := 11

/-- Answer `i` where the bits outside the format are 0. -/
def strict (clean : Bool) (i : Except DecodeError Instr) : Except DecodeError Instr :=
  if clean then i else .error .reservedBits

/-- The joystick number in an operation word. -/
def joyOfBit (b : Bool) : JoyId := if b then .r else .l

/-- Format `tag` with bits `p` and outer operands `o`. -/
def decodeParts (cfg : Configuration) (tag o : BitVec 8) (p : BitVec 16) : Except DecodeError Instr :=
  let none' := o == 0#8 && p == 0#16
  if tag = BitVec.ofNat 8 tagBare then strict (o == 0#8) (decodeBare p)
  else if tag = BitVec.ofNat 8 tagPos then
    strict (decide (p < 16#16) && decide (o < 2#8)) (decodeEdge p.toNat (o.getLsbD 0))
  else if tag = BitVec.ofNat 8 tagFrame then
    strict (decide (p < 2048#16) && o == 0#8) (.ok (decodeFrame (p.extractLsb' 0 11)))
  else if tag = BitVec.ofNat 8 tagPush then
    strict (decide (p < 256#16) && o == 0#8) (.ok (.push (p.extractLsb' 0 8)))
  else if tag = BitVec.ofNat 8 tagPop then strict none' (.ok .pop)
  else if tag = BitVec.ofNat 8 tagEmpty then strict none' (.ok .interpEmpty)
  else if tag = BitVec.ofNat 8 tagScan then
    strict (decide (p < 256#16) && o == 0#8) (.ok (decodeScan cfg (p.extractLsb' 0 8)))
  else if tag = BitVec.ofNat 8 tagSnap then
    strict (decide (p < 64#16) && decide (o < 4#8))
      (.ok (decodeSnap (joyOfBit (o.getLsbD 0)) (o.getLsbD 1) (p.extractLsb' 0 6)))
  else if tag = BitVec.ofNat 8 tagSwitch then
    strict (decide (p < 256#16) && decide (o < 2#8)) (.ok (decodeSwitch (o.getLsbD 0) (p.extractLsb' 0 8)))
  else if tag = BitVec.ofNat 8 tagSlot then
    strict (o == 0#8)
      (if p = 0#16 then .ok (decodeSlot .joyL) else if p = 1#16 then .ok (decodeSlot .joyR)
        else if p = 2#16 then .ok (decodeSlot .interp) else .error .slot)
  else if tag = BitVec.ofNat 8 tagMatrix then strict none' (.ok .matrixReset)
  else if tag = BitVec.ofNat 8 tagReset then strict none' (.ok .reset)
  else .error .format

/-- The operation an operation word stands for under a configuration. -/
def decode (cfg : Configuration) (w : BitVec 32) : Except DecodeError Instr :=
  decodeParts cfg (w.extractLsb' 24 8) (w.extractLsb' 16 8) (w.extractLsb' 0 16)

/-- The decoder on the bits of one opcode-table row: the bare format, with every bit above `nbits` 0. No row's bare bits
depend on the configuration. -/
def decodeTableWord (nbits w : Nat) : Option Instr :=
  let bits := w % 2 ^ nbits
  if 2 ^ 32 ≤ bits then none
  else
    match decode excfg (BitVec.ofNat 32 bits) with
    | .ok i => some i
    | .error _ => none

/-! ### The encoder -/

/-- The three parts of an operation word put together. -/
def opWord (tag : Nat) (o : BitVec 8) (p : BitVec 16) : BitVec 32 := BitVec.ofNat 8 tag ++ o ++ p

/-- The outer operands of a snapshot: the joystick in bit 0, "equals prev" in bit 1. -/
def snapOperands (j : JoyId) (same : Bool) : BitVec 8 :=
  0#6 ++ BitVec.ofBool same ++ BitVec.ofBool (j == .r)

/-- The operation word of a changed snapshot. -/
def encodeSnap (j : JoyId) (s : Snapshot) : BitVec 32 := opWord tagSnap (snapOperands j false) (s.setWidth 16)

/-- The operation word of a sample at a frame position. -/
def encodeEdge (pos : Nat) (v : Bit) : BitVec 32 :=
  opWord tagPos (0#7 ++ BitVec.ofBool v) (BitVec.ofNat 16 pos)

/-- The operation word of a driver call. -/
def encodeSwitch (on : Bit) (a : SwitchAddress) : BitVec 32 :=
  opWord tagSwitch (0#7 ++ BitVec.ofBool on) (a.setWidth 16)

/-- The operation word of a scan code. -/
def encodeScan (b : Byte) : BitVec 32 := opWord tagScan 0#8 (b.setWidth 16)

/-- The operation word of an operation. -/
def encode (cfg : Configuration) : Instr → BitVec 32
  | .edgeStart v => encodeEdge 1 v
  | .edgeData k v => encodeEdge (k.val + 2) v
  | .edgeParity v => encodeEdge 10 v
  | .edgeStop v => encodeEdge 11 v
  | .frameAccept d p => opWord tagFrame 0#8 ((mkFrame d p).setWidth 16)
  | .frameReject w => opWord tagFrame 0#8 (w.setWidth 16)
  | .push b => opWord tagPush 0#8 (b.setWidth 16)
  | .pop => opWord tagPop 0#8 0#16
  | .interpEmpty => opWord tagEmpty 0#8 0#16
  | .interpRel => encodeScan cfg.relCode
  | .interpExtA => encodeScan cfg.extCodeA
  | .interpExtB => encodeScan cfg.extCodeB
  | .interpResolve b => encodeScan b
  | .interpUnrecognized b => encodeScan b
  | .joypollSame j s => opWord tagSnap (snapOperands j true) (s.setWidth 16)
  | .joypollNone j b1 b2 => encodeSnap j (mkSnap b2 b1 false false false false)
  | .joypollNoneInvalidUd j l r b1 b2 => encodeSnap j (mkSnap b2 b1 r l true true)
  | .joypollNoneInvalidLr j u d b1 b2 => encodeSnap j (mkSnap b2 b1 true true d u)
  | .joypollU j b1 b2 => encodeSnap j (mkSnap b2 b1 false false false true)
  | .joypollD j b1 b2 => encodeSnap j (mkSnap b2 b1 false false true false)
  | .joypollL j b1 b2 => encodeSnap j (mkSnap b2 b1 false true false false)
  | .joypollR j b1 b2 => encodeSnap j (mkSnap b2 b1 true false false false)
  | .joypollUl j b1 b2 => encodeSnap j (mkSnap b2 b1 false true false true)
  | .joypollUr j b1 b2 => encodeSnap j (mkSnap b2 b1 true false false true)
  | .joypollDr j b1 b2 => encodeSnap j (mkSnap b2 b1 true false true false)
  | .joypollDl j b1 b2 => encodeSnap j (mkSnap b2 b1 false true true false)
  | .setswitchOn a => encodeSwitch true (0#1 ++ a)
  | .setswitchOff a => encodeSwitch false (0#1 ++ a)
  | .setswitchSentinel on a => encodeSwitch on (1#1 ++ a)
  | .matrixReset => opWord tagMatrix 0#8 0#16
  | .dispatchJoyL => opWord tagSlot 0#8 0#16
  | .dispatchJoyR => opWord tagSlot 0#8 1#16
  | .dispatchInterp => opWord tagSlot 0#8 2#16
  | .reset => opWord tagReset 0#8 0#16

end Sys2Proof
end

