-- ==== Sys2Proof/Machine/State.lean ====
section
/-! DEFINITION. The state of the core (spec/10 R18 to R41), the array's crosspoints, the model's marks and logs, the
configuration the step takes as its parameter, and the environment's schedule; the reasons a step stops; and the state after
the boot sequence. -/

namespace Sys2Proof.Machine

/-- Why the machine stops in a faulted state: R158 gives one reason only. -/
inductive Fault where
  /-- Raised by SETSWITCH for an address with the sentinel bit set (R86, R158): the spec's own model fault. Safe: it stops
  where the spec says a call must never be made. -/
  | sentinelAtDriver
deriving DecidableEq, Repr

/-- Why a step gives no next state without a fault. -/
inductive Refusal where
  /-- Raised by an arm of exec whose operation has no meaning yet. Safe. -/
  | notModelled (mnemonic : String)
  /-- Raised by an operation run where its selector (R71) does not select it (log 7). Safe: the core runs the operation
  in no such state. -/
  | notSelected (mnemonic : String)
  /-- Raised by the step for bits, or a bit position, that select no operation (log 2). Safe. -/
  | undecodable (e : DecodeError)
  /-- Raised by PUSH and POP for a buffer index outside 0..N-1, an index R45 says cannot be formed (log 9). Safe: no state
  that meets the invariant reaches it. -/
  | noSuchSlot
  /-- Raised by RESET and by every step for a configuration that fails the check (R10, R159): the spec's own refusal. Safe. -/
  | configuration (c : ConfigCheck)
  /-- Raised by the step in a state whose refusal mark is set (R37). Safe: a refused configuration has no run. -/
  | marked
deriving DecidableEq, Repr

/-- DecoderFrame (R20 to R24). -/
structure Decoder where
  pos : BitVec 4
  data : Byte
  start : Bit
  stop : Bit
  par : BitVec 4
deriving DecidableEq, Repr

/-- The buffer's slots as (index, byte) cells in rising order; a slot nothing has written is not listed (R25, R42). -/
abbrev Memory := List Host.Cell

/-- ScanCodeBuffer (R25, R26): the written slots by rising index, and the two indices. -/
structure Buffer where
  mem : Memory
  head : Nat
  tail : Nat
deriving DecidableEq, Repr

/-- InterpreterState (R27, R28). -/
structure Flags where
  rel : Bit
  ext : Bit
deriving DecidableEq, Repr

/-- Six lines or one snapshot for each joystick. -/
structure PerJoy where
  l : BitVec 6
  r : BitVec 6
deriving DecidableEq, Repr

/-- The output wires to the crosspoint array (R32). -/
structure Wires where
  ax : BitVec 4
  ay : BitVec 2
  xdata : Bit
  xstrobe : Bit
deriving DecidableEq, Repr

/-- One entry of the trace (R34, R92). -/
structure Call where
  on : Bool
  addr : SwitchAddress
  sel : Byte
deriving DecidableEq, Repr

/-- One entry of the event log with the information of R157. -/
inductive Event where
  | framing (start stop parOdd : Bit) (data : Byte)
  | overflow (evicted : Byte)
  | unrecognized (b : Byte)
  | joyInvalid (j : JoyId) (s : Snapshot)
deriving DecidableEq, Repr

/-- One item of the schedule: an event of the environment or a step of an agent (R80, R53, R112; log 3). -/
inductive Item where
  /-- The keyboard presents one clock edge with this level. -/
  | edge (v : Bit)
  /-- The same, at a moment when the platform may lose it (R112, R163). -/
  | lostEdge (v : Bit)
  /-- The environment sets the raw lines of a joystick (R30). -/
  | joy (j : JoyId) (raw : BitVec 6)
  /-- The POLL agent takes one DISPATCH step. -/
  | poll
  /-- Power is cycled: the boot sequence runs (R174, R175). -/
  | reset
  /-- One operation of R2 given by its operation word (log 4). -/
  | word (w : BitVec 32)
deriving DecidableEq, Repr

/-- The whole state. -/
structure State where
  dec : Decoder
  buf : Buffer
  ip : Flags
  joyPrev : PerJoy
  joyRaw : PerJoy
  slot : Fin 3
  irqEn : Bool
  out : Wires
  xp : Vector Bool 64
  trace : List Call
  evlog : List Event
  fault : Option Fault
  refused : Bool
  cfg : Configuration
  sched : List Item
  powerUps : Nat
deriving DecidableEq, Repr

/-- The trace entry of a driver call (R92). -/
def traceEntry (c : DriverCall) : Call := ⟨c.1, c.2, selWord c.1 c.2⟩

/-- The state of a core with this configuration after the boot sequence (R41). -/
def State.afterBoot (cfg : Configuration) : State where
  dec := ⟨1#4, 0#8, false, false, 0#4⟩
  buf := ⟨[], 0, 0⟩
  ip := ⟨false, false⟩
  joyPrev := ⟨0#6, 0#6⟩
  joyRaw := ⟨0x3F#6, 0x3F#6⟩
  slot := 0
  irqEn := true
  out := ⟨0#4, 0#2, false, false⟩
  xp := Vector.replicate 64 false
  trace := matrixCalls.map traceEntry
  evlog := []
  fault := none
  refused := false
  cfg := cfg
  sched := []
  powerUps := 0

/-- The machine right after reset (R41), with the configuration EXCFG (DESIGN CHOICE, log 5), nothing pressed on the
joysticks (DESIGN CHOICE, log 10) and an empty schedule (DESIGN CHOICE, log 3). -/
def State.reset : State := State.afterBoot excfg

end Sys2Proof.Machine
end

