-- ==== Sys2Proof/Machine/Flags.lean ====
section
/-! DEFINITION. Every computation on the core's only condition flags, `ip.rel` and `ip.ext` (R27, R28, R38), and on the
decoder's parity count (R24). -/

namespace Sys2Proof.Machine

/-- `ip.rel <- true` (R119). -/
def Flags.setRel (f : Flags) : Flags := { f with rel := true }

/-- `ip.ext <- true` (R120). -/
def Flags.setExt (f : Flags) : Flags := { f with ext := true }

/-- `ip.rel <- false; ip.ext <- false` (R123, R124). -/
def Flags.clear (_ : Flags) : Flags := ⟨false, false⟩

/-- The parity count after one more sample (R105, R106). -/
def countSample (par : BitVec 4) (v : Bit) : BitVec 4 := if v then par + 1#4 else par

/-- Whether the parity count is odd: only its bit 0 is read (R24). -/
def parityOdd (par : BitVec 4) : Bool := par.getLsbD 0

end Sys2Proof.Machine
end

