-- ==== Sys2Proof/Machine/Ops.lean ====
section
/-! DEFINITION. The named operations over the state that the meanings share: outcomes in sequence, the selector check,
buffer memory, the driver with the array's response, the event log, and the frame reset. The core has no exception to take
and none to return from (R155, R166, R167). -/

namespace Sys2Proof.Machine

/-! ### Outcomes -/

/-- The outcome of an operation with a result of type `α`. -/
abbrev Res (α : Type) := Host.Outcome α Fault Refusal

/-- Go on with a result, or stop with the fault or refusal. -/
def andThen {α β : Type} (o : Res α) (f : α → Res β) : Res β :=
  match o with
  | .next a => f a
  | .fault r => .fault r
  | .refused r => .refused r

/-- The next state, if there is one. -/
def nextOf {α : Type} : Res α → Option α
  | .next a => some a
  | _ => none

/-- The fault, if there is one. -/
def faultOf {α : Type} : Res α → Option Fault
  | .fault r => some r
  | _ => none

/-- The refusal, if there is one. -/
def refusalOf {α : Type} : Res α → Option Refusal
  | .refused r => some r
  | _ => none

/-- An operation runs only where its selector selects it (R71; log 7). -/
def whenSelected (sel : Bool) (mnemonic : String) (o : Res State) : Res State :=
  if sel then o else .refused (.notSelected mnemonic)

/-! ### Buffer memory -/

/-- The byte written to a slot, if any. -/
def Memory.read : Memory → Nat → Option Byte
  | [], _ => none
  | (a, b) :: rest, i => if a = i then some b else Memory.read rest i

/-- `MemWrite(i, 1, b)` (R13): the cells stay in rising order of their slots. -/
def Memory.write : Memory → Nat → Byte → Memory
  | [], i, b => [(i, b)]
  | (a, c) :: rest, i, b =>
    if i < a then (i, b) :: (a, c) :: rest
    else if a = i then (i, b) :: rest
    else (a, c) :: Memory.write rest i b

/-- The canonical form: slots strictly rising. An unlisted slot holds no written byte, so no listed cell can repeat it. -/
def Memory.wf : Memory → Bool
  | [] => true
  | [_] => true
  | (a, _) :: (c, d) :: rest => decide (a < c) && Memory.wf ((c, d) :: rest)

/-- `MemRead(i, 1)` (R13): the byte last written to the slot, or the free byte it held at power-up (R25; log 8). -/
def State.slotByte (s : State) (i : Nat) : Byte :=
  match Memory.read s.buf.mem i with
  | some b => b
  | none => Config.slotAtPowerUp s.powerUps i

/-- N for this state's configuration (R93). -/
def State.slots (s : State) : Nat := slotCount s.cfg

/-- The number of unread bytes (R94). -/
def State.count (s : State) : Nat := (s.buf.tail + s.slots - s.buf.head) % s.slots

/-- The unread bytes, oldest first (R94). -/
def State.contents (s : State) : List Byte :=
  (List.range s.count).map fun k => s.slotByte ((s.buf.head + k) % s.slots)

/-! ### The event log -/

/-- `Emit(e)` (R13). -/
def State.emit (s : State) (e : Event) : State := { s with evlog := s.evlog ++ [e] }

/-- The code of an event (R157). -/
def eventCode : Event → Nat
  | .framing _ _ _ _ => 1
  | .overflow _ => 2
  | .unrecognized _ => 3
  | .joyInvalid _ _ => 4

/-! ### The buffer (spec/41) -/

/-- `BufPush(b)` (R95, R96). -/
def bufPush (b : Byte) (s : State) : Res State :=
  if s.buf.tail < s.slots then
    let s1 := { s with buf := ⟨Memory.write s.buf.mem s.buf.tail b, s.buf.head, (s.buf.tail + 1) % s.slots⟩ }
    if s1.buf.tail = s1.buf.head then
      .next (State.emit { s1 with buf := { s1.buf with head := (s1.buf.head + 1) % s.slots } }
        (.overflow (s1.slotByte s1.buf.head)))
    else .next s1
  else .refused .noSuchSlot

/-- `BufPop()` (R97). -/
def bufPop (s : State) : Res (Option Byte × State) :=
  if s.buf.head = s.buf.tail then .next (none, s)
  else if s.buf.head < s.slots then
    .next (some (s.slotByte s.buf.head), { s with buf := { s.buf with head := (s.buf.head + 1) % s.slots } })
  else .refused .noSuchSlot

/-! ### The driver and the array (spec/40) -/

/-- The state of crosspoint `c` (R33). -/
def State.closed (s : State) (c : BitVec 6) : Bool := s.xp[c.toNat]

/-- The array's response while the strobe is high (R85): `xp[DECODE(AX)][AY] <- XDATA`. -/
def State.arrayResponds (s : State) : State :=
  if s.out.xstrobe then
    { s with xp := s.xp.set (cell (decodeX s.out.ax) s.out.ay).toNat s.out.xdata (BitVec.isLt _) }
  else s

/-- Phase 1 of R84: present select and data, strobe low. -/
def State.present (s : State) (on : Bool) (a : SwitchAddress) : State :=
  { s with out := ⟨remap (addrX a), addrY a, on, false⟩ }

/-- Phases 2 and 3 of R84: set the strobe level; the array sees it. -/
def State.strobe (s : State) (level : Bit) : State :=
  State.arrayResponds { s with out := { s.out with xstrobe := level } }

/-- Phase 4 of R84: select and data lines back to 0. -/
def State.quiesce (s : State) : State :=
  { s with out := { s.out with ax := 0#4, ay := 0#2, xdata := false } }

/-- The trace bookkeeping of R92. -/
def State.record (s : State) (on : Bool) (a : SwitchAddress) : State :=
  { s with trace := s.trace ++ [traceEntry (on, a)] }

/-- `SetSwitch(on, a)` (R84, R86). -/
def setSwitch (on : Bool) (a : SwitchAddress) (s : State) : Res State :=
  if isSentinel a then .fault .sentinelAtDriver
  else .next (((((s.present on a).strobe true).strobe false).quiesce).record on a)

/-- Driver calls one after the other. -/
def runCalls : List DriverCall → State → Res State
  | [], s => .next s
  | c :: rest, s => andThen (setSwitch c.1 c.2 s) (runCalls rest)

/-- `MatrixReset()` (R89). -/
def matrixResetOp (s : State) : Res State := runCalls matrixCalls s

/-! ### The decoder (spec/42) -/

/-- `FrameReset()` (R109). -/
def frameReset (s : State) : State := { s with dec := ⟨1#4, 0#8, false, false, 0#4⟩ }

/-- The acceptance condition of R107 and R108. -/
def Decoder.accepts (d : Decoder) : Bool := parityOdd d.par && !d.start && d.stop

/-- The event of a rejected frame (R157). -/
def Decoder.framingEvent (d : Decoder) : Event := .framing d.start d.stop (parityOdd d.par) d.data

/-- `EdgeStop(v)` (R107): the shared end of a frame. -/
def endFrame (v : Bit) (s : State) : Res State :=
  let s1 := { s with dec := { s.dec with stop := v } }
  if s1.dec.accepts then andThen (bufPush s1.dec.data s1) fun s2 => .next (frameReset s2)
  else .next (frameReset (s1.emit s1.dec.framingEvent))

/-! ### Joysticks -/

/-- One joystick's entry. -/
def PerJoy.get (p : PerJoy) : JoyId → BitVec 6
  | .l => p.l
  | .r => p.r

/-- One joystick's entry written. -/
def PerJoy.put (p : PerJoy) (j : JoyId) (v : BitVec 6) : PerJoy :=
  match j with
  | .l => { p with l := v }
  | .r => { p with r := v }

/-- The snapshot of joystick `j` now (R134). -/
def State.sample (s : State) (j : JoyId) : Snapshot := sampleLines (s.joyRaw.get j)

/-- `JoyChange(j, s)` (R136). -/
def joyChange (j : JoyId) (snap : Snapshot) (s : State) : Res State :=
  andThen (runCalls (joyCalls s.cfg j snap) s) fun s1 =>
    let s2 := if nibbleInvalid (nibble snap) then s1.emit (.joyInvalid j snap) else s1
    .next { s2 with joyPrev := s2.joyPrev.put j snap }

/-- `JOYPOLL(j)` on a snapshot (R135, R136). -/
def joyPoll (j : JoyId) (snap : Snapshot) (s : State) : Res State :=
  if snap = s.joyPrev.get j then .next s else joyChange j snap s

/-! ### The interpreter (spec/43) -/

/-- `InterpRel()` (R119). -/
def interpRelOp (s : State) : Res State := .next { s with ip := s.ip.setRel }

/-- `InterpExt()` (R120). -/
def interpExtOp (s : State) : Res State := .next { s with ip := s.ip.setExt }

/-- `InterpResolve` (R121 to R123) of an entry. -/
def interpResolveOp (e : ScanEntry) (s : State) : Res State :=
  andThen (runCalls (resolveCalls s.ip.rel s.ip.ext e) s) fun s1 => .next { s1 with ip := s1.ip.clear }

/-- `InterpUnrecognized` (R124) of a byte. -/
def interpUnrecognizedOp (b : Byte) (s : State) : Res State :=
  .next (State.emit { s with ip := s.ip.clear } (.unrecognized b))

/-- The sub-operation of R116 for a popped byte. -/
def interpByte (b : Byte) (s : State) : Res State :=
  match scan s.cfg b with
  | .setRelease => interpRelOp s
  | .setExtended => interpExtOp s
  | .resolve v0 v1 => interpResolveOp (.resolve v0 v1) s
  | .ignore => interpUnrecognizedOp b s

/-- `Interp()` (R116). -/
def interp (s : State) : Res State :=
  andThen (bufPop s) fun p =>
    match p.1 with
    | none => .next p.2
    | some b => interpByte b p.2

/-! ### The dispatcher (spec/45) -/

/-- `disp.slot <- (disp.slot + 1) mod 3` (R151). -/
def nextSlot (s : State) : State := { s with slot := s.slot + 1 }

/-- The component the next DISPATCH runs (R31, R151). -/
def State.component (s : State) : Slot := orderAt s.cfg.order s.slot

/-- One DISPATCH step that runs a component to its end and then moves the slot (R151). -/
def dispatchOp (run : State → Res State) (s : State) : Res State :=
  andThen (run s) fun s1 => .next (nextSlot s1)

/-! ### Boot (spec/70) -/

/-- Steps 1 and 2 of R175: wires driven to 0, every field at its reset value, the interrupt not yet enabled, the buffer slots
at the free bytes of a new power-up (log 8). The crosspoints keep what they held (R177; log 11), and the configuration and the
environment's lines and schedule are not the core's. -/
def initialValues (s : State) : State :=
  { State.afterBoot s.cfg with
    joyRaw := s.joyRaw, irqEn := false, xp := s.xp, trace := [], sched := s.sched, powerUps := s.powerUps + 1 }

/-- Step 4 of R175. -/
def enableIrq (s : State) : State := { s with irqEn := true }

/-- `RESET` (R175), refused for a configuration that is not well-formed (R159, R179). -/
def boot (s : State) : Res State :=
  match failedCheck s.cfg with
  | some c => .refused (.configuration c)
  | none => andThen (matrixResetOp (initialValues s)) fun s1 => .next (enableIrq s1)

end Sys2Proof.Machine
end

