-- ==== Sys2Proof/Machine/Dispatcher.lean ====
section
/-! DEFINITION. The meanings of the DISPATCH rows (spec/45 R151) and of RESET (spec/70 R175). -/

namespace Sys2Proof.Machine

/-- DISPATCH_JOY_L (R151). -/
def execDispatchJoyL (s : State) : Res State :=
  whenSelected (s.component == .joyL) "DISPATCH_JOY_L" (dispatchOp (joyPoll .l (s.sample .l)) s)

/-- DISPATCH_JOY_R (R151). -/
def execDispatchJoyR (s : State) : Res State :=
  whenSelected (s.component == .joyR) "DISPATCH_JOY_R" (dispatchOp (joyPoll .r (s.sample .r)) s)

/-- DISPATCH_INTERP (R151). -/
def execDispatchInterp (s : State) : Res State :=
  whenSelected (s.component == .interp) "DISPATCH_INTERP" (dispatchOp interp s)

/-- RESET (R175). -/
def execReset (s : State) : Res State := boot s

end Sys2Proof.Machine
end

