-- ==== Sys2Proof/Machine/Driver.lean ====
section
/-! DEFINITION. The meanings of the SETSWITCH rows and of MATRIX_RESET (spec/40 R83 to R89). -/

namespace Sys2Proof.Machine

/-- SETSWITCH_ON (R84): bit 7 of the address is 0. -/
def execSetswitchOn (a : BitVec 7) (s : State) : Res State := setSwitch true (0#1 ++ a) s

/-- SETSWITCH_OFF (R84): bit 7 of the address is 0. -/
def execSetswitchOff (a : BitVec 7) (s : State) : Res State := setSwitch false (0#1 ++ a) s

/-- SETSWITCH_SENTINEL (R86): bit 7 of the address is 1, and the driver faults. -/
def execSetswitchSentinel (on : Bit) (a : BitVec 7) (s : State) : Res State := setSwitch on (1#1 ++ a) s

/-- MATRIX_RESET (R89). -/
def execMatrixReset (s : State) : Res State := matrixResetOp s

end Sys2Proof.Machine
end

