-- ==== Sys2Proof/Machine/Interpreter.lean ====
section
/-! DEFINITION. The meanings of the INTERP sub-operations (spec/43 R118 to R124). The pop that selects them is part of INTERP
(R116), which DISPATCH_INTERP runs. -/

namespace Sys2Proof.Machine

/-- INTERP_EMPTY (R118): selected when POP returned none, that is when the buffer is empty. -/
def execInterpEmpty (s : State) : Res State :=
  whenSelected (s.buf.head == s.buf.tail) "INTERP_EMPTY" (.next s)

/-- INTERP_REL (R119). -/
def execInterpRel (s : State) : Res State := interpRelOp s

/-- INTERP_EXT_A (R120). -/
def execInterpExtA (s : State) : Res State := interpExtOp s

/-- INTERP_EXT_B (R120). -/
def execInterpExtB (s : State) : Res State := interpExtOp s

/-- INTERP_RESOLVE (R121 to R123). -/
def execInterpResolve (b : Byte) (s : State) : Res State :=
  whenSelected (isResolve (scan s.cfg b)) "INTERP_RESOLVE" (interpResolveOp (scan s.cfg b) s)

/-- INTERP_UNRECOGNIZED (R124). -/
def execInterpUnrecognized (b : Byte) (s : State) : Res State :=
  whenSelected (scan s.cfg b == .ignore) "INTERP_UNRECOGNIZED" (interpUnrecognizedOp b s)

end Sys2Proof.Machine
end

