-- ==== Sys2Proof/Machine/Joystick.lean ====
section
/-! DEFINITION. The meanings of the JOYPOLL rows (spec/44 R135 to R145). -/

namespace Sys2Proof.Machine

/-- The change branch of R136 for a row, selected by a snapshot that differs from the previous one. -/
def joyRow (mnemonic : String) (j : JoyId) (snap : Snapshot) (s : State) : Res State :=
  whenSelected (snap != s.joyPrev.get j) mnemonic (joyChange j snap s)

/-- JOYPOLL_SAME (R135). -/
def execJoypollSame (j : JoyId) (snap : Snapshot) (s : State) : Res State :=
  whenSelected (snap == s.joyPrev.get j) "JOYPOLL_SAME" (.next s)

/-- JOYPOLL_NONE (R137). -/
def execJoypollNone (j : JoyId) (b1 b2 : Bit) (s : State) : Res State :=
  joyRow "JOYPOLL_NONE" j (mkSnap b2 b1 false false false false) s

/-- JOYPOLL_NONE_INVALID_UD (R137). -/
def execJoypollNoneInvalidUd (j : JoyId) (l r b1 b2 : Bit) (s : State) : Res State :=
  joyRow "JOYPOLL_NONE_INVALID_UD" j (mkSnap b2 b1 r l true true) s

/-- JOYPOLL_NONE_INVALID_LR (R137). -/
def execJoypollNoneInvalidLr (j : JoyId) (u d b1 b2 : Bit) (s : State) : Res State :=
  joyRow "JOYPOLL_NONE_INVALID_LR" j (mkSnap b2 b1 true true d u) s

/-- JOYPOLL_U (R138). -/
def execJoypollU (j : JoyId) (b1 b2 : Bit) (s : State) : Res State :=
  joyRow "JOYPOLL_U" j (mkSnap b2 b1 false false false true) s

/-- JOYPOLL_D (R139). -/
def execJoypollD (j : JoyId) (b1 b2 : Bit) (s : State) : Res State :=
  joyRow "JOYPOLL_D" j (mkSnap b2 b1 false false true false) s

/-- JOYPOLL_L (R140). -/
def execJoypollL (j : JoyId) (b1 b2 : Bit) (s : State) : Res State :=
  joyRow "JOYPOLL_L" j (mkSnap b2 b1 false true false false) s

/-- JOYPOLL_R (R141). -/
def execJoypollR (j : JoyId) (b1 b2 : Bit) (s : State) : Res State :=
  joyRow "JOYPOLL_R" j (mkSnap b2 b1 true false false false) s

/-- JOYPOLL_UL (R142). -/
def execJoypollUl (j : JoyId) (b1 b2 : Bit) (s : State) : Res State :=
  joyRow "JOYPOLL_UL" j (mkSnap b2 b1 false true false true) s

/-- JOYPOLL_UR (R143). -/
def execJoypollUr (j : JoyId) (b1 b2 : Bit) (s : State) : Res State :=
  joyRow "JOYPOLL_UR" j (mkSnap b2 b1 true false false true) s

/-- JOYPOLL_DR (R144). -/
def execJoypollDr (j : JoyId) (b1 b2 : Bit) (s : State) : Res State :=
  joyRow "JOYPOLL_DR" j (mkSnap b2 b1 true false true false) s

/-- JOYPOLL_DL (R145). -/
def execJoypollDl (j : JoyId) (b1 b2 : Bit) (s : State) : Res State :=
  joyRow "JOYPOLL_DL" j (mkSnap b2 b1 false true true false) s

end Sys2Proof.Machine
end

