-- ==== Sys2Proof/Machine/Queue.lean ====
section
/-! DEFINITION. The meanings of PUSH and POP (spec/41 R95 to R98). -/

namespace Sys2Proof.Machine

/-- PUSH (R95, R96). -/
def execPush (b : Byte) (s : State) : Res State := bufPush b s

/-- POP (R97). The byte goes to the caller; run on its own it has none, and only the state is left (log 4). -/
def execPop (s : State) : Res State := andThen (bufPop s) fun p => .next p.2

end Sys2Proof.Machine
end

