-- ==== Sys2Proof/Machine/Serial.lean ====
section
/-! DEFINITION. The meanings of the EDGE operations and of the two outcomes of a frame (spec/42 R103 to R111). -/

namespace Sys2Proof.Machine

/-- EDGE_START (R104). -/
def execEdgeStart (v : Bit) (s : State) : Res State :=
  whenSelected (s.dec.pos == 1#4) "EDGE_START" (.next { s with dec := { s.dec with start := v, pos := 2#4 } })

/-- EDGE_DATA (R105): `k` is `dec.pos - 2`. -/
def execEdgeData (k : Fin 8) (v : Bit) (s : State) : Res State :=
  whenSelected (s.dec.pos.toNat == k.val + 2) "EDGE_DATA"
    (.next { s with dec := { s.dec with
      data := setBit s.dec.data k.val v, par := countSample s.dec.par v, pos := s.dec.pos + 1#4 } })

/-- EDGE_PARITY (R106). -/
def execEdgeParity (v : Bit) (s : State) : Res State :=
  whenSelected (s.dec.pos == 10#4) "EDGE_PARITY"
    (.next { s with dec := { s.dec with par := countSample s.dec.par v, pos := 11#4 } })

/-- EDGE_STOP (R107). -/
def execEdgeStop (v : Bit) (s : State) : Res State :=
  whenSelected (s.dec.pos == 11#4) "EDGE_STOP" (endFrame v s)

/-- The decoder is at position 11 and holds the samples of frame `w` so far (R104 to R106): the state in which EDGE_STOP with
the sample `W[10]` ends exactly this frame. -/
def Decoder.holds (d : Decoder) (w : FrameWord) : Bool :=
  d.pos == 11#4 && d.start == frameStart w && d.data == frameData w && parityOdd d.par == frameOdd w

/-- FRAME_ACCEPT (R107, R108): the data byte is pushed and the frame reset. -/
def execFrameAccept (d : Byte) (p : Bit) (s : State) : Res State :=
  whenSelected (frameValid (mkFrame d p) && s.dec.holds (mkFrame d p)) "FRAME_ACCEPT"
    (andThen (bufPush d s) fun s1 => .next (frameReset s1))

/-- FRAME_REJECT (R107, R108, R111): only the model's log sees it. -/
def execFrameReject (w : FrameWord) (s : State) : Res State :=
  whenSelected (!frameValid w && s.dec.holds w) "FRAME_REJECT"
    (.next (frameReset (s.emit (.framing (frameStart w) (frameStop w) (frameOdd w) (frameData w)))))

end Sys2Proof.Machine
end

