-- ==== Sys2Proof/Machine/Dispatch.lean ====
section
/-! DEFINITION. One arm per operation of the opcode table, each one direct call of its meaning. -/

namespace Sys2Proof.Machine

def exec (i : Instr) (s : State) : Host.Outcome State Fault Refusal :=
  match i with
  | .edgeStart v => Sys2Proof.Machine.execEdgeStart v s
  | .edgeData k v => Sys2Proof.Machine.execEdgeData k v s
  | .edgeParity v => Sys2Proof.Machine.execEdgeParity v s
  | .edgeStop v => Sys2Proof.Machine.execEdgeStop v s
  | .frameAccept d p => Sys2Proof.Machine.execFrameAccept d p s
  | .frameReject w => Sys2Proof.Machine.execFrameReject w s
  | .push b => Sys2Proof.Machine.execPush b s
  | .pop => Sys2Proof.Machine.execPop s
  | .interpEmpty => Sys2Proof.Machine.execInterpEmpty s
  | .interpRel => Sys2Proof.Machine.execInterpRel s
  | .interpExtA => Sys2Proof.Machine.execInterpExtA s
  | .interpExtB => Sys2Proof.Machine.execInterpExtB s
  | .interpResolve b => Sys2Proof.Machine.execInterpResolve b s
  | .interpUnrecognized b => Sys2Proof.Machine.execInterpUnrecognized b s
  | .joypollSame j p => Sys2Proof.Machine.execJoypollSame j p s
  | .joypollNone j b1 b2 => Sys2Proof.Machine.execJoypollNone j b1 b2 s
  | .joypollNoneInvalidUd j l r b1 b2 => Sys2Proof.Machine.execJoypollNoneInvalidUd j l r b1 b2 s
  | .joypollNoneInvalidLr j u d b1 b2 => Sys2Proof.Machine.execJoypollNoneInvalidLr j u d b1 b2 s
  | .joypollU j b1 b2 => Sys2Proof.Machine.execJoypollU j b1 b2 s
  | .joypollD j b1 b2 => Sys2Proof.Machine.execJoypollD j b1 b2 s
  | .joypollL j b1 b2 => Sys2Proof.Machine.execJoypollL j b1 b2 s
  | .joypollR j b1 b2 => Sys2Proof.Machine.execJoypollR j b1 b2 s
  | .joypollUl j b1 b2 => Sys2Proof.Machine.execJoypollUl j b1 b2 s
  | .joypollUr j b1 b2 => Sys2Proof.Machine.execJoypollUr j b1 b2 s
  | .joypollDr j b1 b2 => Sys2Proof.Machine.execJoypollDr j b1 b2 s
  | .joypollDl j b1 b2 => Sys2Proof.Machine.execJoypollDl j b1 b2 s
  | .setswitchOn a => Sys2Proof.Machine.execSetswitchOn a s
  | .setswitchOff a => Sys2Proof.Machine.execSetswitchOff a s
  | .setswitchSentinel on a => Sys2Proof.Machine.execSetswitchSentinel on a s
  | .matrixReset => Sys2Proof.Machine.execMatrixReset s
  | .dispatchJoyL => Sys2Proof.Machine.execDispatchJoyL s
  | .dispatchJoyR => Sys2Proof.Machine.execDispatchJoyR s
  | .dispatchInterp => Sys2Proof.Machine.execDispatchInterp s
  | .reset => Sys2Proof.Machine.execReset s

end Sys2Proof.Machine
end

