-- ==== Sys2Proof/Machine/Agents.lean ====
section
/-! DEFINITION. What selects the next operation (spec/30 R71, spec/20 R53, spec/60 R160 to R168): the ISR agent's edge, the
POLL agent's dispatch, the environment's events, and the bench item that gives one operation by its word. -/

namespace Sys2Proof.Machine

/-- Run what a decoder answered. -/
def runDecoded (r : Except DecodeError Instr) (s : State) : Res State :=
  match r with
  | .ok i => exec i s
  | .error e => .refused (.undecodable e)

/-- A clock edge (R103, R160, R161): with the interrupt enabled the ISR agent takes the EDGE step `dec.pos` selects; before
that the decoder does not see the edge. -/
def takeEdge (v : Bit) (s : State) : Res State :=
  if s.irqEn then runDecoded (decodeEdge s.dec.pos.toNat v) s else .next s

/-- A clock edge the platform may lose (R112, R163; log 12): lost with EDGE_LOSS, taken without. -/
def takeLostEdge (v : Bit) (s : State) : Res State := if s.cfg.edgeLoss then .next s else takeEdge v s

/-- The POLL agent's next step (R151): DISPATCH on the component of the current slot. -/
def takePoll (s : State) : Res State := exec (decodeSlot s.component) s

/-- The environment sets a joystick's raw lines (R30). -/
def setLines (j : JoyId) (raw : BitVec 6) (s : State) : State := { s with joyRaw := s.joyRaw.put j raw }

/-- One item of the schedule. -/
def takeItem (it : Item) (s : State) : Res State :=
  match it with
  | .edge v => takeEdge v s
  | .lostEdge v => takeLostEdge v s
  | .joy j raw => .next (setLines j raw s)
  | .poll => takePoll s
  | .reset => exec .reset s
  | .word w => runDecoded (decode s.cfg w) s

/-- The next item of the schedule, or, when it is empty, the POLL agent's next step (R150, R152). -/
def runSchedule (s : State) : Res State :=
  match s.sched with
  | [] => takePoll s
  | it :: rest => takeItem it { s with sched := rest }

/-- One step: a faulted or refused state stays so (R37, R158), a configuration that is not well-formed has no run (R159), and
otherwise the schedule says what happens next. -/
def runNext (s : State) : Res State :=
  match s.fault with
  | some r => .fault r
  | none =>
    if s.refused then .refused .marked
    else
      match failedCheck s.cfg with
      | some c => .refused (.configuration c)
      | none => runSchedule s

/-! ### The stimulus language (R80) -/

/-- The eleven edges of a frame word, W[0] first (RAWFRAME of R80). -/
def frameEdges (w : FrameWord) : List Item := (List.range 11).map fun i => .edge (w.getLsbD i)

/-- A statement of the stimulus language. -/
inductive Stimulus where
  | reset
  | edge (v : Bit)
  | rawframe (w : FrameWord)
  | joy (j : JoyId) (raw : BitVec 6)
  | poll
  | frame (b : Byte)
  | round
  | keydown (k : Byte)
  | keyup (k : Byte)
  | xkeydown (k : Byte)
  | xkeyup (k : Byte)
deriving DecidableEq, Repr

/-- FRAME: the eleven edges of the valid frame of a byte. -/
def byteEdges (b : Byte) : List Item := frameEdges (frameOfByte b)

/-- The schedule a statement expands to. -/
def stimulusItems (cfg : Configuration) : Stimulus → List Item
  | .reset => [.reset]
  | .edge v => [.edge v]
  | .rawframe w => frameEdges w
  | .joy j raw => [.joy j raw]
  | .poll => [.poll]
  | .frame b => byteEdges b
  | .round => [.poll, .poll, .poll]
  | .keydown k => byteEdges k
  | .keyup k => byteEdges cfg.relCode ++ byteEdges k
  | .xkeydown k => byteEdges cfg.extCodeA ++ byteEdges k
  | .xkeyup k => byteEdges cfg.extCodeA ++ byteEdges cfg.relCode ++ byteEdges k

/-- The schedule of a script. -/
def scriptItems (cfg : Configuration) (l : List Stimulus) : List Item := l.flatMap (stimulusItems cfg)

/-! ### Placing one operation -/

/-- The state in which the selector of R71 selects an operation: the bit position, the frame held, the previous snapshot, the
slot or the empty buffer the operation's row asks for. Nothing else changes. -/
def makeSelected (i : Instr) (s : State) : State :=
  let atPos (p : BitVec 4) : State := { s with dec := { s.dec with pos := p } }
  let holding (w : FrameWord) : State :=
    { s with dec := { s.dec with
      pos := 11#4, start := frameStart w, data := frameData w
      par := BitVec.ofNat 4 (popcount (w.extractLsb' 1 9)) } }
  let previous (j : JoyId) (p : Snapshot) : State := { s with joyPrev := s.joyPrev.put j p }
  let changed (j : JoyId) (p : Snapshot) : State := if s.joyPrev.get j = p then previous j (~~~p) else s
  let slotOf (c : Slot) : State :=
    { s with slot := if s.cfg.order.first = c then 0 else if s.cfg.order.second = c then 1 else 2 }
  match i with
  | .edgeStart _ => atPos 1#4
  | .edgeData k _ => atPos (BitVec.ofNat 4 (k.val + 2))
  | .edgeParity _ => atPos 10#4
  | .edgeStop _ => atPos 11#4
  | .frameAccept d p => holding (mkFrame d p)
  | .frameReject w => holding w
  | .interpEmpty => { s with buf := { s.buf with head := s.buf.tail } }
  | .joypollSame j p => previous j p
  | .joypollNone j b1 b2 => changed j (mkSnap b2 b1 false false false false)
  | .joypollNoneInvalidUd j l r b1 b2 => changed j (mkSnap b2 b1 r l true true)
  | .joypollNoneInvalidLr j u d b1 b2 => changed j (mkSnap b2 b1 true true d u)
  | .joypollU j b1 b2 => changed j (mkSnap b2 b1 false false false true)
  | .joypollD j b1 b2 => changed j (mkSnap b2 b1 false false true false)
  | .joypollL j b1 b2 => changed j (mkSnap b2 b1 false true false false)
  | .joypollR j b1 b2 => changed j (mkSnap b2 b1 true false false false)
  | .joypollUl j b1 b2 => changed j (mkSnap b2 b1 false true false true)
  | .joypollUr j b1 b2 => changed j (mkSnap b2 b1 true false false true)
  | .joypollDr j b1 b2 => changed j (mkSnap b2 b1 true false true false)
  | .joypollDl j b1 b2 => changed j (mkSnap b2 b1 false true true false)
  | .dispatchJoyL => slotOf .joyL
  | .dispatchJoyR => slotOf .joyR
  | .dispatchInterp => slotOf .interp
  | .push _ => s
  | .pop => s
  | .interpRel => s
  | .interpExtA => s
  | .interpExtB => s
  | .interpResolve _ => s
  | .interpUnrecognized _ => s
  | .setswitchOn _ => s
  | .setswitchOff _ => s
  | .setswitchSentinel _ _ => s
  | .matrixReset => s
  | .reset => s

/-- An operation word put where the next step reads it, with the selector state its operation asks for. -/
def placeWord (s : State) (w : BitVec 32) : State :=
  let placed : State := { s with sched := .word w :: s.sched }
  match decode s.cfg w with
  | .ok i => makeSelected i placed
  | .error _ => placed

end Sys2Proof.Machine
end

