-- ==== Sys2Proof/Machine/Step.lean ====
section
/-! DEFINITION. The step of the machine, and the placing of one opcode-table row where the next step runs it. -/

namespace Sys2Proof.Machine

/-- One step of the core and its environment (R53; log 1, log 3). -/
def step (s : State) : Host.Outcome State Fault Refusal := runNext s

/-- The bits of an opcode-table row, every bit above `nbits` 0, placed as the next item of the schedule (log 3, log 4). -/
def State.withFetchWord (s : State) (nbits w : Nat) : State := placeWord s (BitVec.ofNat 32 (w % 2 ^ nbits))

end Sys2Proof.Machine
end

