-- ==== Sys2Proof/Safety.lean ====
section
/-! DEFINITION. The terms claims use: runs of operations, the plain effect of driver calls, the invariants of the core,
quiescence, a schedule of the spec's own events, the marks a stopped run is left with, and the crosspoints a trace leads
to. -/

namespace Sys2Proof.Machine

/-! ### Runs of operations -/

/-- Operations one after the other. -/
def runOps : List Instr → State → Res State
  | [], s => .next s
  | i :: rest, s => andThen (exec i s) (runOps rest)

/-- Pop `n` times and list the results. -/
def popMany : Nat → State → Res (List (Option Byte) × State)
  | 0, s => .next ([], s)
  | n + 1, s =>
    andThen (bufPop s) fun p => andThen (popMany n p.2) fun q => .next (p.1 :: q.1, q.2)

/-- The names of a table row as driver calls of joystick `j`. -/
def nameCalls (cfg : Configuration) (j : JoyId) (on : Bool) (ns : List JoyName) : List DriverCall :=
  ns.map fun n => (on, joyAddr cfg j n)

/-! ### The plain effect of driver calls -/

/-- The wires between driver calls (R88). -/
def quietWires : Wires := ⟨0#4, 0#2, false, false⟩

/-- The crosspoints after one write (R85). -/
def writeCell (xp : Vector Bool 64) (c : BitVec 6) (on : Bool) : Vector Bool 64 := xp.set c.toNat on c.isLt

/-- What one driver call leaves (R84, R85, R92). -/
def afterCall (s : State) (c : DriverCall) : State :=
  { s with out := quietWires, xp := writeCell s.xp (addrCell c.2) c.1, trace := s.trace ++ [traceEntry c] }

/-- What driver calls one after the other leave. -/
def afterCalls (s : State) (cs : List DriverCall) : State := cs.foldl afterCall s

/-- The state of a crosspoint after calls, the last call on it deciding (R91). -/
def lastWrite (cs : List DriverCall) (c : BitVec 6) (before : Bool) : Bool :=
  cs.foldl (fun v k => if addrCell k.2 = c then k.1 else v) before

/-- The crosspoints a trace leads to from an open array. -/
def replay (tr : List Call) : Vector Bool 64 :=
  tr.foldl (fun xp c => writeCell xp (addrCell c.addr) c.on) (Vector.replicate 64 false)

/-! ### Classes of operations -/

/-- The joystick and the snapshot of a change row of R136. -/
def rowSnapshot : Instr → Option (JoyId × Snapshot)
  | .joypollNone j b1 b2 => some (j, mkSnap b2 b1 false false false false)
  | .joypollNoneInvalidUd j l r b1 b2 => some (j, mkSnap b2 b1 r l true true)
  | .joypollNoneInvalidLr j u d b1 b2 => some (j, mkSnap b2 b1 true true d u)
  | .joypollU j b1 b2 => some (j, mkSnap b2 b1 false false false true)
  | .joypollD j b1 b2 => some (j, mkSnap b2 b1 false false true false)
  | .joypollL j b1 b2 => some (j, mkSnap b2 b1 false true false false)
  | .joypollR j b1 b2 => some (j, mkSnap b2 b1 true false false false)
  | .joypollUl j b1 b2 => some (j, mkSnap b2 b1 false true false true)
  | .joypollUr j b1 b2 => some (j, mkSnap b2 b1 true false false true)
  | .joypollDr j b1 b2 => some (j, mkSnap b2 b1 true false true false)
  | .joypollDl j b1 b2 => some (j, mkSnap b2 b1 false true true false)
  | _ => none

/-- The joystick of a JOYPOLL row, changed or not. -/
def joyOf : Instr → Option JoyId
  | .joypollSame j _ => some j
  | i => (rowSnapshot i).map fun p => p.1

/-- The operations of the ISR agent (R3, R169): EDGE, its outcomes, PUSH. -/
def isSerial : Instr → Bool
  | .edgeStart _ | .edgeData _ _ | .edgeParity _ | .edgeStop _ | .frameAccept _ _ | .frameReject _ | .push _ => true
  | _ => false

/-- The operations of the POLL agent once it runs (R3, R169): all but the ISR agent's and RESET. -/
def isPolled : Instr → Bool
  | .reset => false
  | i => !isSerial i

/-- The operations that may write the prefix flags (R119 to R124, R151, R175). -/
def mayWriteFlags : Instr → Bool
  | .interpRel | .interpExtA | .interpExtB | .interpResolve _ | .interpUnrecognized _ | .dispatchInterp | .reset => true
  | _ => false

/-- The state with everything taken from `p` but the decoder and the buffer (its slots, indices and capacity, and the power-up
whose bytes its unwritten slots hold); the events of `s` follow those of `p`. -/
def State.withOthers (s p : State) : State :=
  { p with
    dec := s.dec, buf := s.buf, powerUps := s.powerUps, cfg := { p.cfg with cap := s.cfg.cap }, evlog := p.evlog ++ s.evlog }

/-- The EDGE operations before a frame's last sample (R104 to R106). -/
def isEarlyEdge : Instr → Bool
  | .edgeStart _ | .edgeData _ _ | .edgeParity _ => true
  | _ => false

/-- A configuration with one joystick's table replaced. -/
def putTable (cfg : Configuration) (j : JoyId) (t : JoyTable) : Configuration :=
  match j with
  | .l => { cfg with joyL := t }
  | .r => { cfg with joyR := t }

/-- The state with one joystick's snapshot, lines and table replaced. -/
def State.withJoystick (s : State) (j : JoyId) (prev raw : BitVec 6) (t : JoyTable) : State :=
  { s with joyPrev := s.joyPrev.put j prev, joyRaw := s.joyRaw.put j raw, cfg := putTable s.cfg j t }

/-- The outcome with its next state changed by `f`. -/
def mapNext (f : State → State) (o : Res State) : Res State := andThen o fun t => .next (f t)

/-- What a change row leaves (R136): both buttons driven to the snapshot, the names in `opens` opened, the names in `closes`
closed, the snapshot stored, and an invalid nibble logged. -/
def changeTo (s : State) (j : JoyId) (snap : Snapshot) (opens closes : List JoyName) (invalid : Bool) : State :=
  { afterCalls s ([(button1 snap, joyAddr s.cfg j .b1), (button2 snap, joyAddr s.cfg j .b2)]
      ++ nameCalls s.cfg j false opens ++ nameCalls s.cfg j true closes) with
    joyPrev := s.joyPrev.put j snap
    evlog := if invalid then s.evlog ++ [.joyInvalid j snap] else s.evlog }

/-! ### Invariants -/

/-- The decoder between two edges: the position is 1 to 11 (R20), data bits not yet sampled are 0 (R21), and the parity count
is the number of ones sampled at positions 2 to 10 (R24). -/
def decoderOk (d : Decoder) : Bool :=
  decide (1 ≤ d.pos.toNat) && decide (d.pos.toNat ≤ 11) && d.data >>> (d.pos.toNat - 2) == 0#8
    && (d.par.toNat == popcount d.data || (d.pos == 11#4 && d.par.toNat == popcount d.data + 1))

/-- The buffer between two operations: both indices in 0..N-1 (R26), the memory in its canonical form with no slot outside
0..N-1 (R42), and every unread slot written (R25). -/
def bufferOk (s : State) : Bool :=
  decide (s.buf.head < s.slots) && decide (s.buf.tail < s.slots) && Memory.wf s.buf.mem
    && s.buf.mem.all (fun c => decide (c.1 < s.slots))
    && (List.range s.count).all (fun k => (Memory.read s.buf.mem ((s.buf.head + k) % s.slots)).isSome)

/-- The trace holds only calls the driver made: no sentinel, and the select word of the call (R86, R92). -/
def traceOk (s : State) : Bool := s.trace.all fun c => !isSentinel c.addr && c.sel == selWord c.on c.addr

/-- The invariant of a running core. -/
abbrev State.Inv (s : State) : Prop :=
  decoderOk s.dec = true ∧ bufferOk s = true ∧ traceOk s = true ∧ s.out = quietWires ∧ s.irqEn = true
    ∧ s.fault = none ∧ s.refused = false ∧ cfgWellFormed s.cfg = true

/-- A state in which the step looks at the schedule: no mark is set and the configuration passes every check. -/
abbrev State.Running (s : State) : Prop := s.fault = none ∧ s.refused = false ∧ cfgWellFormed s.cfg = true

/-- The items that are the spec's own events and agent steps (R80, R112), not operations given by their word (log 4). -/
def Item.isOwn : Item → Bool
  | .word _ => false
  | _ => true

/-- The items by which the keyboard presents an edge (R80, R112). -/
def Item.isEdge : Item → Bool
  | .edge _ | .lostEdge _ => true
  | _ => false

/-- Quiescence (R154): no frame in flight, no unread byte, no joystick changed, and no edge of the keyboard still to come;
never with a mark set (R158, R159). -/
abbrev State.Quiescent (s : State) : Prop :=
  s.dec.pos = 1#4 ∧ s.buf.head = s.buf.tail ∧ s.sample .l = s.joyPrev.l ∧ s.sample .r = s.joyPrev.r
    ∧ s.sched.all (fun it => !it.isEdge) = true ∧ s.fault = none ∧ s.refused = false

/-- The state a stopped run is left in (R37, R158, R159; log 13). -/
def settle (s : State) : Res State → State
  | .next t => t
  | .fault r => { s with fault := some r }
  | .refused (.configuration _) => { s with refused := true }
  | .refused _ => s

/-- No address of a joystick's table is a sentinel (`cfg_joy_no_sentinel` for one joystick). -/
def joyTableOk (cfg : Configuration) (j : JoyId) : Bool := (tableAll (joyTable cfg j)).all fun a => !isSentinel a

/-- The crosspoint of a joystick's switch name. -/
def joyCell (cfg : Configuration) (j : JoyId) (n : JoyName) : BitVec 6 := addrCell (joyAddr cfg j n)

end Sys2Proof.Machine
end

