-- ==== Sys2Proof/Certificates/Slice0/Obligations.lean ====
section
/-! DEFINITION. The statements for the provers, in the order of spec/. Where a docstring says "derived", the statement rests on
a sentence that spec/ marks as its own decision or derivation, or on a model choice whose log entry it names. -/

open Sys2Proof Sys2Proof.Machine

/-! ### Encodings (spec/30, spec/40 section 1) -/

/-- Every well-formed operation is read back from its operation word. Derived: the word around the spec's formats is the
model's (log 2). -/
def Obligations.EncodeThenDecodeIsIdentity : Prop :=
  ∀ (cfg : Configuration) (i : Instr), cfgWellFormed cfg = true → WellFormed cfg i = true →
    decode cfg (encode cfg i) = .ok i

/-- Every operation word with a format number other than the bare one that decodes is the word of the well-formed operation
it decodes to: no two words mean one operation and no bit is ignored. Derived (log 2). -/
def Obligations.DecodeThenEncodeIsIdentity : Prop :=
  ∀ (cfg : Configuration) (w : BitVec 32) (i : Instr), cfgWellFormed cfg = true → decode cfg w = .ok i →
    w.extractLsb' 24 8 ≠ BitVec.ofNat 8 tagBare → encode cfg i = w ∧ WellFormed cfg i = true

/-- The valid frame words are exactly the words of R68, one for each byte, and each carries its byte. Derived: R68 is marked
derived from R59 and R66. -/
def Obligations.ValidFramesAreOnePerByte : Prop :=
  (∀ b : Byte, frameValid (frameOfByte b) = true ∧ frameData (frameOfByte b) = b) ∧
  (∀ w : FrameWord, frameValid w = true → w = frameOfByte (frameData w))

/-- A few operation words written out from the formats of spec/30, one or more for each format. Derived (log 2). -/
def Obligations.SampleWordsDecode : Prop :=
  decode excfg 0x01010001#32 = .ok (.edgeStart true) ∧
  decode excfg 0x01010004#32 = .ok (.edgeData 2 true) ∧
  decode excfg 0x0200#32 = .ok (.frameReject 0x200#11) ∧
  decode excfg 0x02000438#32 = .ok (.frameAccept 0x1C#8 false) ∧
  decode excfg 0x06000075#32 = .ok (.interpResolve 0x75#8) ∧
  decode excfg 0x060000F0#32 = .ok .interpRel ∧
  decode excfg 0x07010029#32 = .ok (.joypollUr .r false true) ∧
  decode excfg 0x0801002C#32 = .ok (.setswitchOn 0x2C#7) ∧
  decode excfg 0x08000080#32 = .ok (.setswitchSentinel false 0#7) ∧
  decode excfg 0x09000002#32 = .ok .dispatchInterp ∧
  decodeTableWord 8 0x0B = some (.edgeStop false) ∧
  decodeTableWord 8 0x05 = some (.joypollUl .l false false)

/-- The X remap, its table in full (R81). -/
def Obligations.RemapIsTheGivenTable : Prop :=
  (List.range 16).map (fun x => (remap (BitVec.ofNat 4 x)).toNat) = [0, 1, 2, 3, 4, 5, 8, 9, 10, 11, 12, 13, 6, 7, 14, 15]

/-- The array's decode inverts the remap, so the remap is a permutation; it is not idempotent and its fourth power is the
identity. Derived: R82 is marked derived from R81. -/
def Obligations.RemapIsAPermutation : Prop :=
  (∀ x : BitVec 4, decodeX (remap x) = x ∧ remap (decodeX x) = x ∧ remap (remap (remap (remap x))) = x) ∧
  remap (remap 6#4) ≠ remap 6#4

/-- The direction nibble's sixteen values and their cases (R70). -/
def Obligations.DirectionNibblesMatchTheTable : Prop :=
  (List.range 16).map (fun n => dirCase (BitVec.ofNat 4 n)) =
    [.none, .u, .d, .none, .l, .ul, .dl, .none, .r, .ur, .dr, .none, .none, .none, .none, .none] ∧
  (List.range 16).filter (fun n => nibbleInvalid (BitVec.ofNat 4 n)) =
    [0b0011, 0b0111, 0b1011, 0b1100, 0b1101, 0b1110, 0b1111]

/-! ### The serial decoder (spec/42) -/

/-- EDGE_START stores the sample as the start bit, moves to position 2 and changes nothing else, whatever the sample
(R104). -/
def Obligations.EdgeStartStoresTheStartBit : Prop :=
  ∀ (v : Bit) (s : State), s.dec.pos = 1#4 →
    exec (.edgeStart v) s = .next { s with dec := { s.dec with start := v, pos := 2#4 } }

/-- EDGE_DATA at position `k + 2` writes bit `k` of the data byte and no other, counts a 1, moves one position on and changes
nothing else (R105). Derived: how the byte is assembled and the width of the count are decisions D6 and D7. -/
def Obligations.EdgeDataWritesOneBit : Prop :=
  ∀ (k : Fin 8) (v : Bit) (s : State), s.dec.pos.toNat = k.val + 2 →
    ∃ t, exec (.edgeData k v) s = .next t ∧
      t.dec.data.getLsbD k.val = v ∧
      (∀ i, i < 8 → i ≠ k.val → t.dec.data.getLsbD i = s.dec.data.getLsbD i) ∧
      t.dec.par = s.dec.par + (if v = true then 1#4 else 0#4) ∧
      t.dec.pos.toNat = s.dec.pos.toNat + 1 ∧
      t = { s with dec := { s.dec with data := t.dec.data, par := t.dec.par, pos := t.dec.pos } }

/-- EDGE_PARITY counts a 1, moves to position 11 and changes nothing else (R106). Derived: the count's width is D7. -/
def Obligations.EdgeParityCountsTheSample : Prop :=
  ∀ (v : Bit) (s : State), s.dec.pos = 10#4 →
    exec (.edgeParity v) s = .next
      { s with dec := { s.dec with par := s.dec.par + (if v = true then 1#4 else 0#4), pos := 11#4 } }

/-- EDGE_STOP accepts exactly when the parity count is odd, the start bit was 0 and the stop bit is 1: then it does what PUSH
of the data byte does, otherwise it only logs the reject; in both cases the frame is reset (R107, R108, R109). Derived: that
the reset also clears the data, start and stop fields is D5, and the log is D28. -/
def Obligations.EdgeStopEndsTheFrame : Prop :=
  ∀ (v : Bit) (s : State), s.dec.pos = 11#4 → s.buf.tail < s.slots →
    (s.dec.par.toNat % 2 = 1 ∧ s.dec.start = false ∧ v = true →
      ∃ p, exec (.push s.dec.data) s = .next p ∧
        exec (.edgeStop v) s = .next { p with dec := ⟨1#4, 0x00#8, false, false, 0#4⟩ }) ∧
    (¬(s.dec.par.toNat % 2 = 1 ∧ s.dec.start = false ∧ v = true) →
      exec (.edgeStop v) s = .next
        { s with
          dec := ⟨1#4, 0x00#8, false, false, 0#4⟩
          evlog := s.evlog ++ [.framing s.dec.start v (decide (s.dec.par.toNat % 2 = 1)) s.dec.data] })

/-- A decoder at position 11 that holds the samples of a frame word ends it as the word's own row says, FRAME_ACCEPT when the
word is valid and FRAME_REJECT when it is not, and that row completes (R107, R108, R71a). Derived: R108 is marked derived. -/
def Obligations.FrameRowsAreTheOutcomesOfEdgeStop : Prop :=
  ∀ (w : FrameWord) (s : State), s.dec.holds w = true → s.buf.tail < s.slots →
    exec (.edgeStop (frameStop w)) s = exec (decodeFrame w) s ∧
    (frameValid w = true → ∃ p, exec (.push (frameData w)) s = .next p ∧
      exec (.frameAccept (frameData w) (frameParity w)) s = .next { p with dec := ⟨1#4, 0x00#8, false, false, 0#4⟩ }) ∧
    (frameValid w = false → exec (.frameReject w) s = .next
      { s with
        dec := ⟨1#4, 0x00#8, false, false, 0#4⟩
        evlog := s.evlog ++ [.framing (frameStart w) (frameStop w) (frameOdd w) (frameData w)] })

/-- The ISR agent's operations read only the decoder and the sample, and through PUSH the buffer (its slots, indices, capacity
and unwritten bytes): with every other field, the rest of the configuration and the log before them replaced, they do the same
and leave it alone. The operations before the last sample of a frame do not even read the buffer. They write only the decoder,
the buffer and the event log (R115). -/
def Obligations.SerialOperationsUseOnlyTheirOwnState : Prop :=
  ∀ (i : Instr) (s p : State), isSerial i = true →
    exec i (s.withOthers p) = mapNext (fun t => t.withOthers p) (exec i s) ∧
    (isEarlyEdge i = true → exec i { p with dec := s.dec } = mapNext (fun t => { p with dec := t.dec }) (exec i s)) ∧
    (∀ t, exec i s = .next t → t = { s with dec := t.dec, buf := t.buf, evlog := t.evlog })

/-- Before position 11 every sample moves the frame one position on, and no sample pushes, logs or drives anything: the frame
is checked at position 11 only (R110). Derived: that the step takes the schedule's edge is log 3. -/
def Obligations.FrameIsCheckedOnlyAtItsEnd : Prop :=
  ∀ (s : State) (v : Bit) (rest : List Item), s.Running → s.irqEn = true → s.sched = .edge v :: rest →
    1 ≤ s.dec.pos.toNat → s.dec.pos.toNat ≤ 10 →
    ∃ t, step s = .next t ∧ t.dec.pos.toNat = s.dec.pos.toNat + 1 ∧ t = { s with dec := t.dec, sched := rest }

/-- Eleven edges from position 1 decode the frame: a valid word has its data byte pushed, an invalid word is only logged, and
the decoder ends at its initial state (R113). Derived: R113 is marked derived, and the run reads the schedule (log 3). -/
def Obligations.ElevenEdgesDecodeAFrame : Prop :=
  ∀ (s : State) (w : FrameWord) (rest : List Item), s.Running → s.irqEn = true → s.buf.tail < s.slots →
    s.dec.pos = 1#4 → s.dec.data = 0x00#8 → s.dec.par = 0#4 → s.sched = frameEdges w ++ rest →
    (frameValid w = true → ∃ p, exec (.push (frameData w)) s = .next p ∧
      Host.Core.run Sys2Proof.core 11 s = .next { p with dec := ⟨1#4, 0x00#8, false, false, 0#4⟩, sched := rest }) ∧
    (frameValid w = false → Host.Core.run Sys2Proof.core 11 s = .next
      { s with
        dec := ⟨1#4, 0x00#8, false, false, 0#4⟩
        evlog := s.evlog ++ [.framing (frameStart w) (frameStop w) (frameOdd w) (frameData w)]
        sched := rest })

/-- No resynchronisation (R114): a decoder one position ahead that took a stop bit for its start bit, and a decoder one
position behind, reject every whole keyboard frame and are at the same offset after it, with the buffer untouched. Derived:
R114 is marked derived. -/
def Obligations.ShiftedDecoderRejectsEveryFrame : Prop :=
  ∀ (s : State) (w : FrameWord) (rest : List Item), s.Running → s.irqEn = true → s.sched = frameEdges w ++ rest →
    (s.dec.pos = 2#4 → s.dec.start = true → s.dec.data = 0x00#8 → s.dec.par = 0#4 → frameStop w = true →
      ∃ t, Host.Core.run Sys2Proof.core 11 s = .next t ∧ t.dec.pos = 2#4 ∧ t.dec.start = true ∧ t.dec.data = 0x00#8 ∧
        t.dec.par = 0#4 ∧ t.buf = s.buf ∧ t.sched = rest ∧ t.evlog.length = s.evlog.length + 1) ∧
    (s.dec.pos = 11#4 → frameStart w = false →
      ∃ t, Host.Core.run Sys2Proof.core 11 s = .next t ∧ t.dec.pos = 11#4 ∧ t.buf = s.buf ∧ t.sched = rest ∧
        t.evlog.length = s.evlog.length + 1)

/-! ### The scan-code buffer (spec/41) -/

/-- PUSH writes the byte to the tail's slot and no other slot, advances the tail, and when the tail catches the head drops the
oldest byte and logs it: the byte in the old head's slot, which is the one just written where head and tail were equal;
nothing else changes (R95; what the event carries is R157's). -/
def Obligations.PushWritesTheTailSlot : Prop :=
  ∀ (b : Byte) (s : State), s.buf.tail < s.slots →
    ∃ t, exec (.push b) s = .next t ∧
      t.slotByte s.buf.tail = b ∧ (∀ a, a ≠ s.buf.tail → t.slotByte a = s.slotByte a) ∧
      t.buf.tail = (s.buf.tail + 1) % s.slots ∧
      (t.buf.tail = s.buf.head → t.buf.head = (s.buf.head + 1) % s.slots ∧
        t.evlog = s.evlog ++ [.overflow (if s.buf.head = s.buf.tail then b else s.slotByte s.buf.head)]) ∧
      (t.buf.tail ≠ s.buf.head → t.buf.head = s.buf.head ∧ t.evlog = s.evlog) ∧
      t = { s with buf := t.buf, evlog := t.evlog }

/-- POP on an empty buffer returns none and writes nothing; otherwise it returns the byte in the head's slot and advances the
head, and no slot changes (R97, R98). -/
def Obligations.PopReadsTheHeadSlot : Prop :=
  ∀ s : State,
    (s.buf.head = s.buf.tail → bufPop s = .next (none, s) ∧ exec .pop s = .next s) ∧
    (s.buf.head ≠ s.buf.tail → s.buf.head < s.slots →
      ∃ t, bufPop s = .next (some (s.slotByte s.buf.head), t) ∧ exec .pop s = .next t ∧
        (∀ a, t.slotByte a = s.slotByte a) ∧
        t = { s with buf := { s.buf with head := (s.buf.head + 1) % s.slots } })

/-- PUSH on the ring is PUSH on a list of at most C bytes that drops its oldest byte when full and logs the byte it dropped
(R93, R94, R96, R101, R157). Derived: R93 and R101 are marked derived, the log is D28. -/
def Obligations.PushIsDropOldestOnTheContents : Prop :=
  ∀ (b : Byte) (s : State), bufferOk s = true → 1 ≤ s.cfg.cap →
    s.contents.length ≤ s.cfg.cap ∧
    ∃ t, exec (.push b) s = .next t ∧ bufferOk t = true ∧
      t.contents = (if s.contents.length = s.cfg.cap then s.contents.drop 1 else s.contents) ++ [b] ∧
      t.evlog = s.evlog ++ (if s.contents.length = s.cfg.cap then s.contents.head?.toList.map .overflow else [])

/-- POP on the ring takes the oldest byte of the list of unread bytes (R93, R94, R100). Derived: R93 and R100 are marked
derived. -/
def Obligations.PopTakesTheOldestByte : Prop :=
  ∀ s : State, bufferOk s = true →
    ∃ t, bufPop s = .next (s.contents.head?, t) ∧ t.contents = s.contents.drop 1

/-- C + 1 pushes into an empty buffer and then C pops give the last C bytes in order, and one more pop gives none (R102).
Derived: R102 is marked derived. -/
def Obligations.OneByteTooManyEvictsTheFirst : Prop :=
  ∀ (s : State) (xs : List Byte), bufferOk s = true → s.buf.head = s.buf.tail → 1 ≤ s.cfg.cap →
    xs.length = s.cfg.cap + 1 →
    ∃ t u, runOps (xs.map .push) s = .next t ∧
      popMany s.cfg.cap t = .next ((xs.drop 1).map some, u) ∧ bufPop u = .next (none, u)

/-- Operations other than the ISR agent's and RESET leave the decoder, every buffer slot, the tail, the configuration, the
lines, the interrupt enable and the marks alone, and read nothing of the decoder: with another decoder they do the same
(R169, R99). Derived: the atomic POP is a decision of R48's file (D2). -/
def Obligations.PolledOperationsLeaveTheSerialSide : Prop :=
  ∀ (i : Instr) (s : State), isPolled i = true →
    (∀ d : Decoder, exec i { s with dec := d } = mapNext (fun t => { t with dec := d }) (exec i s)) ∧
    (∀ t, exec i s = .next t →
      t.dec = s.dec ∧ t.buf.mem = s.buf.mem ∧ t.buf.tail = s.buf.tail ∧ (∀ a, t.slotByte a = s.slotByte a) ∧
      t.cfg = s.cfg ∧ t.joyRaw = s.joyRaw ∧ t.irqEn = s.irqEn ∧ t.fault = s.fault ∧ t.refused = s.refused ∧
      t.sched = s.sched)

/-! ### The driver (spec/40) -/

/-- SETSWITCH_ON and SETSWITCH_OFF write the one crosspoint their address names, record the call with its select word, leave
every wire 0 and change nothing else; bit 6 does not matter (R84, R85, R92). Derived: the wire phases and the array's latch
are D21, the trace is D28. -/
def Obligations.SetSwitchWritesOneCrosspoint : Prop :=
  ∀ (a : BitVec 7) (s : State),
    ∃ t u, exec (.setswitchOn a) s = .next t ∧ exec (.setswitchOff a) s = .next u ∧
      (∀ c, t.closed c = if c = a.extractLsb' 0 6 then true else s.closed c) ∧
      (∀ c, u.closed c = if c = a.extractLsb' 0 6 then false else s.closed c) ∧
      t.trace = s.trace ++ [⟨true, 0#1 ++ a, 0b11#2 ++ a.extractLsb' 4 2 ++ remap (a.extractLsb' 0 4)⟩] ∧
      u.trace = s.trace ++ [⟨false, 0#1 ++ a, 0b10#2 ++ a.extractLsb' 4 2 ++ remap (a.extractLsb' 0 4)⟩] ∧
      t = { s with out := ⟨0#4, 0#2, false, false⟩, xp := t.xp, trace := t.trace } ∧
      u = { s with out := ⟨0#4, 0#2, false, false⟩, xp := u.xp, trace := u.trace }

/-- While the strobe is high the wires carry the remapped X, the Y and the level of the call, and that is the moment the array
takes the write (R84, R85). Derived: D21. -/
def Obligations.WiresCarryTheCallUnderTheStrobe : Prop :=
  ∀ (on : Bool) (a : SwitchAddress) (s : State),
    (s.present on a).out = ⟨remap (addrX a), addrY a, on, false⟩ ∧ (s.present on a).xp = s.xp ∧
    ((s.present on a).strobe true).out = ⟨remap (addrX a), addrY a, on, true⟩ ∧
    ((s.present on a).strobe true).closed (addrY a ++ addrX a) = on ∧
    (∀ c, c ≠ addrY a ++ addrX a → ((s.present on a).strobe true).closed c = s.closed c)

/-- A sentinel that reaches the driver faults, whatever `on` and the other bits are (R86, R158). Derived: D22. -/
def Obligations.SentinelFaultsAtTheDriver : Prop :=
  ∀ (on : Bit) (a : BitVec 7) (s : State), exec (.setswitchSentinel on a) s = .fault .sentinelAtDriver

/-- MATRIX_RESET opens all 64 crosspoints whatever they held, with 64 calls, the y-th of the x-th four at (x, y), and changes
nothing else (R89). Derived: the order is D24. -/
def Obligations.MatrixResetOpensEveryCrosspoint : Prop :=
  ∀ s : State, ∃ t calls, exec .matrixReset s = .next t ∧ (∀ c, t.closed c = false) ∧
    t.trace = s.trace ++ calls ∧ calls.length = 64 ∧
    (∀ (x : Fin 16) (y : Fin 4), calls[4 * x.val + y.val]? =
      some ⟨false, BitVec.ofNat 8 (16 * y.val + x.val),
        BitVec.ofNat 8 (128 + 16 * y.val + (remap (BitVec.ofNat 4 x.val)).toNat)⟩) ∧
    t = { s with out := ⟨0#4, 0#2, false, false⟩, xp := t.xp, trace := t.trace }

/-! ### The interpreter (spec/43) -/

/-- With an empty buffer INTERP_EMPTY writes nothing; a release code sets only its flag; both extended codes set only theirs
(R118, R119, R120). -/
def Obligations.PrefixesSetOnlyTheirFlag : Prop :=
  ∀ s : State,
    (s.buf.head = s.buf.tail → exec .interpEmpty s = .next s) ∧
    exec .interpRel s = .next { s with ip := ⟨true, s.ip.ext⟩ } ∧
    exec .interpExtA s = .next { s with ip := ⟨s.ip.rel, true⟩ } ∧
    exec .interpExtB s = .next { s with ip := ⟨s.ip.rel, true⟩ }

/-- INTERP_RESOLVE drives, in list order and with the level `!ip.rel`, the addresses of the variant that `ip.ext` chooses that
are no sentinels, then clears both flags, also where no call was made, and changes nothing else (R121, R122, R123). Derived:
the clearing for an entry without addresses is D12. -/
def Obligations.ResolveDrivesTheVariantAndClears : Prop :=
  ∀ (b : Byte) (s : State) (v0 v1 : List SwitchAddress), scan s.cfg b = .resolve v0 v1 →
    exec (.interpResolve b) s = .next
      { afterCalls s (((if s.ip.ext = true then v1 else v0).filter fun a => !isSentinel a).map fun a => (!s.ip.rel, a)) with
        ip := ⟨false, false⟩ }

/-- Every call INTERP_RESOLVE makes has an address that is no sentinel and the level `!ip.rel` of before the clearing
(R122). -/
def Obligations.OnlyRealAddressesReachTheDriver : Prop :=
  ∀ (b : Byte) (s t : State), exec (.interpResolve b) s = .next t →
    ∃ calls, t.trace = s.trace ++ calls ∧ ∀ c ∈ calls, c.addr.getLsbD 7 = false ∧ c.on = !s.ip.rel

/-- An unrecognized byte clears both flags, is logged, makes no driver call and changes nothing else (R124). -/
def Obligations.UnrecognizedByteClearsBothFlags : Prop :=
  ∀ (b : Byte) (s : State), scan s.cfg b = .ignore →
    exec (.interpUnrecognized b) s = .next { s with ip := ⟨false, false⟩, evlog := s.evlog ++ [.unrecognized b] }

/-- Prefixes are idempotent and their order does not matter: after any sequence of them each flag is set exactly when it was
set before or one of its prefixes came, and nothing else changed (R126, R78). Derived: both are marked derived. -/
def Obligations.PrefixOrderDoesNotMatter : Prop :=
  ∀ (l : List Instr) (s : State), (∀ i ∈ l, i = .interpRel ∨ i = .interpExtA ∨ i = .interpExtB) →
    runOps l s = .next { s with
      ip := ⟨s.ip.rel || l.contains .interpRel, s.ip.ext || l.contains .interpExtA || l.contains .interpExtB⟩ }

/-- Only the operations of the interpreter, the slot that runs it and RESET write the flags. Besides RESET, only
INTERP_RESOLVE and INTERP_UNRECOGNIZED clear one, and the interpreter slot only where the byte it pops resolves or is not
recognized (R127, R126). Derived: both are marked derived. -/
def Obligations.OnlyResolvedOrUnrecognizedClears : Prop :=
  ∀ (i : Instr) (s t : State), exec i s = .next t →
    (mayWriteFlags i = false → t.ip = s.ip) ∧
    ((s.ip.rel = true ∧ t.ip.rel = false) ∨ (s.ip.ext = true ∧ t.ip.ext = false) →
      (∃ b, i = .interpResolve b) ∨ (∃ b, i = .interpUnrecognized b) ∨ i = .reset ∨
      (i = .dispatchInterp ∧ ∃ b p, bufPop s = .next (some b, p) ∧
        (isResolve (scan s.cfg b) = true ∨ scan s.cfg b = .ignore)))

/-! ### The joystick samplers (spec/44) -/

/-- A snapshot equal to the previous one does nothing (R135). -/
def Obligations.SameSnapshotDoesNothing : Prop :=
  ∀ (j : JoyId) (snap : Snapshot) (s : State), snap = s.joyPrev.get j → exec (.joypollSame j snap) s = .next s

/-- The four cardinal rows: both buttons, seven opens in DIRNAMES order, one close, the snapshot stored, nothing else
(R138 to R141 with R136). Derived: the order of the calls is D17 and D18. -/
def Obligations.CardinalRowsOpenSevenAndCloseOne : Prop :=
  ∀ (j : JoyId) (b1 b2 : Bit) (s : State), joyTableOk s.cfg j = true →
    (mkSnap b2 b1 false false false true ≠ s.joyPrev.get j → exec (.joypollU j b1 b2) s = .next
      (changeTo s j (mkSnap b2 b1 false false false true) [.d, .l, .r, .xul, .xur, .xdr, .xdl] [.u] false)) ∧
    (mkSnap b2 b1 false false true false ≠ s.joyPrev.get j → exec (.joypollD j b1 b2) s = .next
      (changeTo s j (mkSnap b2 b1 false false true false) [.u, .l, .r, .xul, .xur, .xdr, .xdl] [.d] false)) ∧
    (mkSnap b2 b1 false true false false ≠ s.joyPrev.get j → exec (.joypollL j b1 b2) s = .next
      (changeTo s j (mkSnap b2 b1 false true false false) [.u, .d, .r, .xul, .xur, .xdr, .xdl] [.l] false)) ∧
    (mkSnap b2 b1 true false false false ≠ s.joyPrev.get j → exec (.joypollR j b1 b2) s = .next
      (changeTo s j (mkSnap b2 b1 true false false false) [.u, .d, .l, .xul, .xur, .xdr, .xdl] [.r] false))

/-- The four diagonal rows: both buttons, five opens, three closes, the snapshot stored, nothing else (R142 to R145 with
R136). Derived: the order of the calls is D17 and D18. -/
def Obligations.DiagonalRowsOpenFiveAndCloseThree : Prop :=
  ∀ (j : JoyId) (b1 b2 : Bit) (s : State), joyTableOk s.cfg j = true →
    (mkSnap b2 b1 false true false true ≠ s.joyPrev.get j → exec (.joypollUl j b1 b2) s = .next
      (changeTo s j (mkSnap b2 b1 false true false true) [.d, .r, .xur, .xdr, .xdl] [.u, .l, .xul] false)) ∧
    (mkSnap b2 b1 true false false true ≠ s.joyPrev.get j → exec (.joypollUr j b1 b2) s = .next
      (changeTo s j (mkSnap b2 b1 true false false true) [.d, .l, .xul, .xdr, .xdl] [.u, .r, .xur] false)) ∧
    (mkSnap b2 b1 true false true false ≠ s.joyPrev.get j → exec (.joypollDr j b1 b2) s = .next
      (changeTo s j (mkSnap b2 b1 true false true false) [.u, .l, .xul, .xur, .xdl] [.d, .r, .xdr] false)) ∧
    (mkSnap b2 b1 false true true false ≠ s.joyPrev.get j → exec (.joypollDl j b1 b2) s = .next
      (changeTo s j (mkSnap b2 b1 false true true false) [.u, .r, .xul, .xur, .xdr] [.d, .l, .xdl] false))

/-- The three rows without a direction: both buttons, eight opens, no close, the snapshot stored, an invalid nibble logged,
nothing else (R137 with R136). Derived: the order of the calls is D17 and D18. -/
def Obligations.NoneRowsOpenAllEight : Prop :=
  ∀ (j : JoyId) (x y b1 b2 : Bit) (s : State), joyTableOk s.cfg j = true →
    (mkSnap b2 b1 false false false false ≠ s.joyPrev.get j → exec (.joypollNone j b1 b2) s = .next
      (changeTo s j (mkSnap b2 b1 false false false false) [.u, .d, .l, .r, .xul, .xur, .xdr, .xdl] [] false)) ∧
    (mkSnap b2 b1 y x true true ≠ s.joyPrev.get j → exec (.joypollNoneInvalidUd j x y b1 b2) s = .next
      (changeTo s j (mkSnap b2 b1 y x true true) [.u, .d, .l, .r, .xul, .xur, .xdr, .xdl] [] true)) ∧
    (mkSnap b2 b1 true true y x ≠ s.joyPrev.get j → exec (.joypollNoneInvalidLr j x y b1 b2) s = .next
      (changeTo s j (mkSnap b2 b1 true true y x) [.u, .d, .l, .r, .xul, .xur, .xdr, .xdl] [] true))

/-- A direction row makes a closing call for each name it closes and an opening call for every other direction name; after it
the names it closes are closed, and every other direction name whose crosspoint none of them shares is open
(R138 to R145). -/
def Obligations.DirectionRowsLeaveExactlyTheirSet : Prop :=
  ∀ (j : JoyId) (b1 b2 : Bit) (s : State), joyTableOk s.cfg j = true →
    ∀ p ∈ [(Instr.joypollU j b1 b2, mkSnap b2 b1 false false false true, [JoyName.u]),
           (.joypollD j b1 b2, mkSnap b2 b1 false false true false, [.d]),
           (.joypollL j b1 b2, mkSnap b2 b1 false true false false, [.l]),
           (.joypollR j b1 b2, mkSnap b2 b1 true false false false, [.r]),
           (.joypollUl j b1 b2, mkSnap b2 b1 false true false true, [.u, .l, .xul]),
           (.joypollUr j b1 b2, mkSnap b2 b1 true false false true, [.u, .r, .xur]),
           (.joypollDr j b1 b2, mkSnap b2 b1 true false true false, [.d, .r, .xdr]),
           (.joypollDl j b1 b2, mkSnap b2 b1 false true true false, [.d, .l, .xdl])],
      p.2.1 ≠ s.joyPrev.get j →
        ∃ t calls, exec p.1 s = .next t ∧ t.joyPrev.get j = p.2.1 ∧ t.trace = s.trace ++ calls ∧
          (∀ n ∈ dirNames, traceEntry (p.2.2.contains n, joyAddr s.cfg j n) ∈ calls) ∧
          (∀ n ∈ p.2.2, t.closed (joyCell s.cfg j n) = true) ∧
          (∀ n ∈ dirNames, (∀ m ∈ p.2.2, joyCell s.cfg j m ≠ joyCell s.cfg j n) → t.closed (joyCell s.cfg j n) = false)

/-- A row without a direction makes an opening call for all eight direction names; after it all are open, and an invalid nibble
is logged (R137). -/
def Obligations.NoneRowsLeaveEveryDirectionOpen : Prop :=
  ∀ (j : JoyId) (x y b1 b2 : Bit) (s : State), joyTableOk s.cfg j = true →
    ∀ p ∈ [(Instr.joypollNone j b1 b2, mkSnap b2 b1 false false false false, false),
           (.joypollNoneInvalidUd j x y b1 b2, mkSnap b2 b1 y x true true, true),
           (.joypollNoneInvalidLr j x y b1 b2, mkSnap b2 b1 true true y x, true)],
      p.2.1 ≠ s.joyPrev.get j →
        ∃ t calls, exec p.1 s = .next t ∧ t.joyPrev.get j = p.2.1 ∧ t.trace = s.trace ++ calls ∧
          (∀ n ∈ dirNames, traceEntry (false, joyAddr s.cfg j n) ∈ calls ∧ t.closed (joyCell s.cfg j n) = false) ∧
          t.evlog = s.evlog ++ (if p.2.2 then [.joyInvalid j p.2.1] else [])

/-- Every change row makes ten driver calls, two for the buttons and then eight for the directions, and among the eight no
open comes after a close (R146, R147). Derived: both are marked derived. -/
def Obligations.EveryChangeOpensBeforeItCloses : Prop :=
  ∀ (i : Instr) (j : JoyId) (snap : Snapshot) (s t : State), rowSnapshot i = some (j, snap) → exec i s = .next t →
    ∃ buttons directions, t.trace = s.trace ++ buttons ++ directions ∧ buttons.length = 2 ∧ directions.length = 8 ∧
      directions.Pairwise (fun c d => c.on = true → d.on = true)

/-- Between any two driver calls of a change branch, and before and after them, U and D are not both closed and L and R are
not both closed, where they were not before, the four addresses name four crosspoints, and no button or diagonal extra shares
one of them (R148). Derived: R148 is marked derived; that the buttons share none is this statement's premise, the rule
naming only other components. -/
def Obligations.NoOpposedDirectionsBothClosed : Prop :=
  ∀ (j : JoyId) (snap : Snapshot) (s t : State) (k : Nat),
    (∀ n ∈ [JoyName.u, .d, .l, .r], ∀ m, m ≠ n → joyCell s.cfg j m ≠ joyCell s.cfg j n) →
    ¬(s.closed (joyCell s.cfg j .u) = true ∧ s.closed (joyCell s.cfg j .d) = true) →
    ¬(s.closed (joyCell s.cfg j .l) = true ∧ s.closed (joyCell s.cfg j .r) = true) →
    runCalls ((joyCalls s.cfg j snap).take k) s = .next t →
    ¬(t.closed (joyCell s.cfg j .u) = true ∧ t.closed (joyCell s.cfg j .d) = true) ∧
    ¬(t.closed (joyCell s.cfg j .l) = true ∧ t.closed (joyCell s.cfg j .r) = true)

/-- The two samplers are independent: a JOYPOLL row of one joystick does the same and leaves the other alone whatever the
other's previous snapshot, lines and addresses are (R132). -/
def Obligations.SamplersAreIndependent : Prop :=
  ∀ (i : Instr) (j k : JoyId) (prev raw : BitVec 6) (tbl : JoyTable) (s : State), joyOf i = some j → j ≠ k →
    exec i (s.withJoystick k prev raw tbl) = mapNext (fun t => t.withJoystick k prev raw tbl) (exec i s)

/-! ### The dispatcher (spec/45) -/

/-- A joystick slot samples the lines, runs the JOYPOLL row the snapshot selects and moves the slot on; it completes when the
joystick's table has no sentinel (R151, R134, R71d). Derived: the slot is D20, the atomic sample D19. -/
def Obligations.JoystickSlotRunsTheSelectedRow : Prop :=
  ∀ (s : State) (j : JoyId) (i : Instr), (j = .l ∧ i = .dispatchJoyL ∧ s.component = .joyL) ∨
      (j = .r ∧ i = .dispatchJoyR ∧ s.component = .joyR) →
    exec i s = mapNext (fun t => { t with slot := t.slot + 1 })
      (exec (decodeSnap j (decide (~~~(s.joyRaw.get j) = s.joyPrev.get j)) (~~~(s.joyRaw.get j))) s) ∧
    (joyTableOk s.cfg j = true → ∃ t, exec i s = .next t ∧ t.slot = s.slot + 1 ∧ t.joyPrev.get j = ~~~(s.joyRaw.get j))

/-- The interpreter slot pops once, runs the INTERP row the result selects and moves the slot on; it completes when the head is
a slot of the ring or the buffer is empty (R151, R116, R71c). Derived: one byte a slot is D13, the slot D20. -/
def Obligations.InterpreterSlotRunsTheSelectedRow : Prop :=
  ∀ s : State, s.component = .interp → (s.buf.head < s.slots ∨ s.buf.head = s.buf.tail) →
    ∃ r p t, bufPop s = .next (r, p) ∧ exec (decodePop s.cfg r) p = .next t ∧
      exec .dispatchInterp s = .next { t with slot := t.slot + 1 }

/-- A DISPATCH step adds at most ten driver calls to the trace, the interpreter slot at most two (R152). Derived: R152 is
marked derived. -/
def Obligations.DispatchMakesBoundedCalls : Prop :=
  ∀ (i : Instr) (s t : State), cfgWellFormed s.cfg = true →
    i = .dispatchJoyL ∨ i = .dispatchJoyR ∨ i = .dispatchInterp → exec i s = .next t →
    ∃ calls, t.trace = s.trace ++ calls ∧ calls.length ≤ 10 ∧ (i = .dispatchInterp → calls.length ≤ 2)

/-- From a quiescent state every DISPATCH step only moves the slot, and the state stays quiescent; so after any number of them,
the inputs unchanged, only the slot is another (R154). Derived: D33, and that POLL items and an empty schedule mean a POLL
step is log 3. -/
def Obligations.QuiescentStateOnlyMovesTheSlot : Prop :=
  ∀ (s : State) (rest : List Item), s.Running → s.Quiescent →
    (s.sched = .poll :: rest ∨ (s.sched = [] ∧ rest = []) →
      step s = .next { s with slot := s.slot + 1, sched := rest } ∧
      State.Quiescent { s with slot := s.slot + 1, sched := rest }) ∧
    (∀ n, s.sched = List.replicate n .poll ++ rest →
      ∃ k, Host.Core.run Sys2Proof.core n s = .next { s with slot := k, sched := rest })

/-! ### Boot (spec/70) -/

/-- RESET from any state, whatever the crosspoints and slots held, with a well-formed configuration leaves the state of R41:
every field at its reset value, the trace the 64 calls of MATRIX_RESET, the interrupt enabled; the environment's lines and
schedule stay (R175, R41). Derived: D4, D5, D16, D20, D24, D25, D26, D28; the free value's counter is log 8. -/
def Obligations.ResetLeavesTheBootState : Prop :=
  ∀ s : State, cfgWellFormed s.cfg = true →
    exec .reset s = .next
      { State.afterBoot s.cfg with joyRaw := s.joyRaw, sched := s.sched, powerUps := s.powerUps + 1 } ∧
    (∀ cfg : Configuration, (State.afterBoot cfg).dec = ⟨1#4, 0x00#8, false, false, 0#4⟩ ∧
      (State.afterBoot cfg).buf.head = 0 ∧ (State.afterBoot cfg).buf.tail = 0 ∧
      (State.afterBoot cfg).ip = ⟨false, false⟩ ∧ (State.afterBoot cfg).joyPrev = ⟨0#6, 0#6⟩ ∧
      (State.afterBoot cfg).slot = 0 ∧ (State.afterBoot cfg).irqEn = true ∧
      (State.afterBoot cfg).out = ⟨0#4, 0#2, false, false⟩ ∧ (∀ c, (State.afterBoot cfg).closed c = false) ∧
      (State.afterBoot cfg).trace.length = 64 ∧ (State.afterBoot cfg).evlog = [] ∧
      (State.afterBoot cfg).fault = none ∧ (State.afterBoot cfg).refused = false ∧ (State.afterBoot cfg).cfg = cfg)

/-- A configuration that fails a check has no run: RESET refuses it under the check's name, and so does every step of an
unmarked state, and the run is left with the refusal mark (R159, R10). Derived: D10, D15, D20, D23;
that every step answers the refusal, under the first check that fails, and that `settle` sets the mark, is log 13. -/
def Obligations.IllFormedConfigurationHasNoRun : Prop :=
  ∀ (s : State) (c : ConfigCheck), failedCheck s.cfg = some c →
    exec .reset s = .refused (.configuration c) ∧
    (s.fault = none → s.refused = false → step s = .refused (.configuration c) ∧ (settle s (step s)).refused = true)

/-! ### The step (spec/20, spec/30, spec/60) -/

/-- A clock edge runs the EDGE row that the bit position selects: 1 EDGE_START, 2 to 9 EDGE_DATA, 10 EDGE_PARITY, 11 EDGE_STOP
(R71a, R103). Derived: the schedule is log 3; the positions' ranges are R20 (D5). -/
def Obligations.StepRunsTheEdgeThePositionSelects : Prop :=
  ∀ (s : State) (v : Bit) (rest : List Item), s.Running → s.irqEn = true → s.sched = .edge v :: rest →
    (s.dec.pos = 1#4 → step s = exec (.edgeStart v) { s with sched := rest }) ∧
    (∀ k : Fin 8, s.dec.pos.toNat = k.val + 2 → step s = exec (.edgeData k v) { s with sched := rest }) ∧
    (s.dec.pos = 10#4 → step s = exec (.edgeParity v) { s with sched := rest }) ∧
    (s.dec.pos = 11#4 → step s = exec (.edgeStop v) { s with sched := rest })

/-- A POLL item, and an empty schedule, run the DISPATCH row of the current slot's component (R71b, R151, R152). Derived: the
schedule is log 3. -/
def Obligations.StepRunsTheSlotsComponent : Prop :=
  ∀ (s : State) (rest : List Item), s.Running → s.sched = .poll :: rest ∨ (s.sched = [] ∧ rest = []) →
    (s.component = .joyL → step s = exec .dispatchJoyL { s with sched := rest }) ∧
    (s.component = .joyR → step s = exec .dispatchJoyR { s with sched := rest }) ∧
    (s.component = .interp → step s = exec .dispatchInterp { s with sched := rest })

/-- An operation word whose bits decode to an operation runs exactly that operation, with the word taken off the schedule.
Derived (log 2, log 4). -/
def Obligations.StepRunsTheDecodedOperation : Prop :=
  ∀ (s : State) (w : BitVec 32) (i : Instr) (rest : List Item), s.Running → s.sched = .word w :: rest →
    decode s.cfg w = .ok i → step s = exec i { s with sched := rest }

/-- The environment's other events: lines change (R30), an edge before the interrupt is enabled is not seen (R161, R176), an
edge the platform may lose is lost with EDGE_LOSS and taken without (R112, R163), power cycles (R174, R175). Derived: log 3
and log 12; D9, D26, D27. -/
def Obligations.StepTakesTheEnvironmentsEvents : Prop :=
  ∀ (s : State) (rest : List Item), s.Running →
    (∀ j raw, s.sched = .joy j raw :: rest → step s = .next { s with joyRaw := s.joyRaw.put j raw, sched := rest }) ∧
    (∀ v, s.sched = .edge v :: rest → s.irqEn = false → step s = .next { s with sched := rest }) ∧
    (∀ v, s.sched = .lostEdge v :: rest → s.cfg.edgeLoss = true → step s = .next { s with sched := rest }) ∧
    (∀ v, s.sched = .lostEdge v :: rest → s.cfg.edgeLoss = false → step s = step { s with sched := .edge v :: rest }) ∧
    (s.sched = .reset :: rest → step s = exec .reset { s with sched := rest })

/-- A table row placed by `withFetchWord` (no row is longer than 16 bits) is the very next operation, in the state that differs
from the old one only in the selector the row asks for. Derived (log 2, log 4). -/
def Obligations.PlacedRowRunsNext : Prop :=
  ∀ (s : State) (nbits w : Nat) (i : Instr), nbits ≤ 16 → s.Running → decodeTableWord nbits w = some i →
    step (s.withFetchWord nbits w) = exec i (makeSelected i s)

/-- A step that faults leaves the state with the fault mark, a refused state answers the refusal `marked`; both stay as they are
and are never quiescent (R37, R158, R159). Derived: D22; that `settle` sets the mark, and the refusal `marked`, are log 13. -/
def Obligations.StoppedStateStaysStopped : Prop :=
  (∀ (s : State) (r : Fault), s.fault = none → s.refused = false → step s = .fault r →
    (settle s (step s)).fault = some r ∧ step (settle s (step s)) = .fault r ∧ ¬(settle s (step s)).Quiescent) ∧
  (∀ (s : State) (r : Fault), s.fault = some r → step s = .fault r ∧ settle s (step s) = s ∧ ¬s.Quiescent) ∧
  (∀ s : State, s.fault = none → s.refused = true →
    step s = .refused .marked ∧ settle s (step s) = s ∧ ¬s.Quiescent)

/-! ### The whole machine -/

/-- The state right after reset meets the invariant. Derived: D4, D5, D24, D26; its configuration is log 5. -/
def Obligations.ResetMeetsTheInvariant : Prop := State.reset.Inv

/-- Every step keeps the invariant: the position in 1 to 11, no data bit before its sample, the parity count the number of
ones, the indices in the ring, the memory canonical and every unread slot written, the trace true to the driver, the wires
quiet between steps, the interrupt enabled, no mark set (R20, R21, R24, R25, R26, R88, R92, R161). Derived: it joins rules that
carry decisions D4, D5, D7, D21, D26, D28. -/
def Obligations.EveryStepKeepsTheInvariant : Prop :=
  ∀ s t : State, s.Inv → step s = .next t → t.Inv

/-- The core never halts: from every state that meets the invariant, with a schedule of the spec's own events, the step answers
a next state, and such a schedule is left (R155, R158, R86, R152). Derived: R86 and R152 carry derivations, and the operation
words are left out by log 4. -/
def Obligations.NoInputHaltsTheCore : Prop :=
  ∀ s : State, s.Inv → s.sched.all Item.isOwn = true → ∃ t, step s = .next t ∧ t.sched.all Item.isOwn = true

/-- No operation and no step writes the configuration (R189). -/
def Obligations.ConfigurationIsNeverWritten : Prop :=
  (∀ (i : Instr) (s t : State), exec i s = .next t → t.cfg = s.cfg) ∧
  (∀ s t : State, step s = .next t → t.cfg = s.cfg)

/-- The array shows exactly what the trace says: when the crosspoints are what the recorded calls lead to, they are so after
every step (R85, R33, R34). Derived: D21, D28. -/
def Obligations.EveryStepKeepsTheTraceTrue : Prop :=
  State.reset.xp = replay State.reset.trace ∧
  ∀ s t : State, s.xp = replay s.trace → step s = .next t → t.xp = replay t.trace

/-- An EDGE step and a joystick DISPATCH step give the same state in either order, but for the order of the event log, which
holds the same events (R54, R165, R167). Derived: the rules are marked derived, and the log is D28. -/
def Obligations.EdgeCommutesWithAJoystickSlot : Prop :=
  ∀ (s : State) (v : Bit) (rest : List Item), s.Inv → s.component ≠ .interp →
    ∃ t u, Host.Core.run Sys2Proof.core 2 { s with sched := .edge v :: .poll :: rest } = .next t ∧
      Host.Core.run Sys2Proof.core 2 { s with sched := .poll :: .edge v :: rest } = .next u ∧
      { t with evlog := [] } = { u with evlog := [] } ∧ t.evlog.Perm u.evlog

/-- An EDGE step that does not push (any sample before the last of a frame, or a last sample whose frame is rejected) gives the
same state before and after an interpreter slot, but for the order of the event log, which holds the same events and, for a
sample before the last, is the same: only an EDGE that pushes can be told from its order against a POP (R165). Derived: R165
is marked derived. -/
def Obligations.OnlyAStopSampleRacesWithAPop : Prop :=
  ∀ (s : State) (v : Bit) (rest : List Item), s.Inv → s.component = .interp →
    ¬(s.dec.pos = 11#4 ∧ s.dec.par.toNat % 2 = 1 ∧ s.dec.start = false ∧ v = true) →
    ∃ t u, Host.Core.run Sys2Proof.core 2 { s with sched := .edge v :: .poll :: rest } = .next t ∧
      Host.Core.run Sys2Proof.core 2 { s with sched := .poll :: .edge v :: rest } = .next u ∧
      { t with evlog := [] } = { u with evlog := [] } ∧ t.evlog.Perm u.evlog ∧ (s.dec.pos ≠ 11#4 → t = u)
end

