-- ==== Sys2Proof/Laws/Decode.lean ====
section
/-! SUPPORT. The parts of an operation word read back. -/

namespace Sys2Proof

theorem opWord_getLsbD (tag : Nat) (o : BitVec 8) (p : BitVec 16) (i : Nat) :
    (opWord tag o p).getLsbD i =
      if i < 16 then p.getLsbD i else if i < 24 then o.getLsbD (i - 16) else (BitVec.ofNat 8 tag).getLsbD (i - 24) := by
  change (BitVec.ofNat 8 tag ++ o ++ p : BitVec (8 + 8 + 16)).getLsbD i = _
  rw [BitVec.getLsbD_append, BitVec.getLsbD_append]
  by_cases h : i < 16
  · simp [h]
  · by_cases h2 : i < 24
    · simp [h, h2, show i - 16 < 8 by omega]
    · simp only [h, h2, if_false, show ¬ i - 16 < 8 by omega, show i - 16 - 8 = i - 24 by omega]

theorem opWord_tag (tag : Nat) (o : BitVec 8) (p : BitVec 16) : (opWord tag o p).extractLsb' 24 8 = BitVec.ofNat 8 tag := by
  apply BitVec.eq_of_getLsbD_eq
  intro i hi
  rw [BitVec.getLsbD_extractLsb', opWord_getLsbD]
  simp [hi, show ¬ (24 + i < 16) by omega, show ¬ (24 + i  < 24) by omega]

theorem opWord_operands (tag : Nat) (o : BitVec 8) (p : BitVec 16) : (opWord tag o p).extractLsb' 16 8 = o := by
  apply BitVec.eq_of_getLsbD_eq
  intro i hi
  rw [BitVec.getLsbD_extractLsb', opWord_getLsbD]
  simp [hi, show  (16 + i < 24) by omega]

theorem opWord_bits (tag : Nat) (o : BitVec 8) (p : BitVec 16) : (opWord tag o p).extractLsb' 0 16 = p := by
  apply BitVec.eq_of_getLsbD_eq
  intro i hi
  rw [BitVec.getLsbD_extractLsb', opWord_getLsbD]
  simp [hi]

/-- Decoding an operation word decodes its parts. -/
theorem decode_opWord (cfg : Configuration) (tag : Nat) (o : BitVec 8) (p : BitVec 16) :
    decode cfg (opWord tag o p) = decodeParts cfg (BitVec.ofNat 8 tag) o p := by
  rw [decode, opWord_tag, opWord_operands, opWord_bits]

end Sys2Proof
end

