-- ==== Sys2Proof/Laws/State.lean ====
section
/-! SUPPORT. One lemma per field for each named update of the state, and the reads of a pair of joystick entries. -/

namespace Sys2Proof.Machine

@[simp] theorem State.emit_dec (s : State) (e : Event) : (s.emit e).dec = s.dec := rfl
@[simp] theorem State.emit_buf (s : State) (e : Event) : (s.emit e).buf = s.buf := rfl
@[simp] theorem State.emit_ip (s : State) (e : Event) : (s.emit e).ip = s.ip := rfl
@[simp] theorem State.emit_joyPrev (s : State) (e : Event) : (s.emit e).joyPrev = s.joyPrev := rfl
@[simp] theorem State.emit_joyRaw (s : State) (e : Event) : (s.emit e).joyRaw = s.joyRaw := rfl
@[simp] theorem State.emit_slot (s : State) (e : Event) : (s.emit e).slot = s.slot := rfl
@[simp] theorem State.emit_irqEn (s : State) (e : Event) : (s.emit e).irqEn = s.irqEn := rfl
@[simp] theorem State.emit_out (s : State) (e : Event) : (s.emit e).out = s.out := rfl
@[simp] theorem State.emit_xp (s : State) (e : Event) : (s.emit e).xp = s.xp := rfl
@[simp] theorem State.emit_trace (s : State) (e : Event) : (s.emit e).trace = s.trace := rfl
@[simp] theorem State.emit_evlog (s : State) (e : Event) : (s.emit e).evlog = s.evlog ++ [e] := rfl
@[simp] theorem State.emit_fault (s : State) (e : Event) : (s.emit e).fault = s.fault := rfl
@[simp] theorem State.emit_refused (s : State) (e : Event) : (s.emit e).refused = s.refused := rfl
@[simp] theorem State.emit_cfg (s : State) (e : Event) : (s.emit e).cfg = s.cfg := rfl
@[simp] theorem State.emit_sched (s : State) (e : Event) : (s.emit e).sched = s.sched := rfl
@[simp] theorem State.emit_powerUps (s : State) (e : Event) : (s.emit e).powerUps = s.powerUps := rfl

@[simp] theorem State.record_dec (s : State) (on : Bool) (a : SwitchAddress) : (s.record on a).dec = s.dec := rfl
@[simp] theorem State.record_buf (s : State) (on : Bool) (a : SwitchAddress) : (s.record on a).buf = s.buf := rfl
@[simp] theorem State.record_ip (s : State) (on : Bool) (a : SwitchAddress) : (s.record on a).ip = s.ip := rfl
@[simp] theorem State.record_joyPrev (s : State) (on : Bool) (a : SwitchAddress) : (s.record on a).joyPrev = s.joyPrev := rfl
@[simp] theorem State.record_joyRaw (s : State) (on : Bool) (a : SwitchAddress) : (s.record on a).joyRaw = s.joyRaw := rfl
@[simp] theorem State.record_slot (s : State) (on : Bool) (a : SwitchAddress) : (s.record on a).slot = s.slot := rfl
@[simp] theorem State.record_irqEn (s : State) (on : Bool) (a : SwitchAddress) : (s.record on a).irqEn = s.irqEn := rfl
@[simp] theorem State.record_out (s : State) (on : Bool) (a : SwitchAddress) : (s.record on a).out = s.out := rfl
@[simp] theorem State.record_xp (s : State) (on : Bool) (a : SwitchAddress) : (s.record on a).xp = s.xp := rfl
@[simp] theorem State.record_trace (s : State) (on : Bool) (a : SwitchAddress) : (s.record on a).trace = s.trace ++ [traceEntry (on, a)] := rfl
@[simp] theorem State.record_evlog (s : State) (on : Bool) (a : SwitchAddress) : (s.record on a).evlog = s.evlog := rfl
@[simp] theorem State.record_fault (s : State) (on : Bool) (a : SwitchAddress) : (s.record on a).fault = s.fault := rfl
@[simp] theorem State.record_refused (s : State) (on : Bool) (a : SwitchAddress) : (s.record on a).refused = s.refused := rfl
@[simp] theorem State.record_cfg (s : State) (on : Bool) (a : SwitchAddress) : (s.record on a).cfg = s.cfg := rfl
@[simp] theorem State.record_sched (s : State) (on : Bool) (a : SwitchAddress) : (s.record on a).sched = s.sched := rfl
@[simp] theorem State.record_powerUps (s : State) (on : Bool) (a : SwitchAddress) : (s.record on a).powerUps = s.powerUps := rfl

@[simp] theorem frameReset_dec (s : State) : (frameReset s).dec = ⟨1#4, 0#8, false, false, 0#4⟩ := rfl
@[simp] theorem frameReset_buf (s : State) : (frameReset s).buf = s.buf := rfl
@[simp] theorem frameReset_ip (s : State) : (frameReset s).ip = s.ip := rfl
@[simp] theorem frameReset_joyPrev (s : State) : (frameReset s).joyPrev = s.joyPrev := rfl
@[simp] theorem frameReset_joyRaw (s : State) : (frameReset s).joyRaw = s.joyRaw := rfl
@[simp] theorem frameReset_slot (s : State) : (frameReset s).slot = s.slot := rfl
@[simp] theorem frameReset_irqEn (s : State) : (frameReset s).irqEn = s.irqEn := rfl
@[simp] theorem frameReset_out (s : State) : (frameReset s).out = s.out := rfl
@[simp] theorem frameReset_xp (s : State) : (frameReset s).xp = s.xp := rfl
@[simp] theorem frameReset_trace (s : State) : (frameReset s).trace = s.trace := rfl
@[simp] theorem frameReset_evlog (s : State) : (frameReset s).evlog = s.evlog := rfl
@[simp] theorem frameReset_fault (s : State) : (frameReset s).fault = s.fault := rfl
@[simp] theorem frameReset_refused (s : State) : (frameReset s).refused = s.refused := rfl
@[simp] theorem frameReset_cfg (s : State) : (frameReset s).cfg = s.cfg := rfl
@[simp] theorem frameReset_sched (s : State) : (frameReset s).sched = s.sched := rfl
@[simp] theorem frameReset_powerUps (s : State) : (frameReset s).powerUps = s.powerUps := rfl

@[simp] theorem nextSlot_dec (s : State) : (nextSlot s).dec = s.dec := rfl
@[simp] theorem nextSlot_buf (s : State) : (nextSlot s).buf = s.buf := rfl
@[simp] theorem nextSlot_ip (s : State) : (nextSlot s).ip = s.ip := rfl
@[simp] theorem nextSlot_joyPrev (s : State) : (nextSlot s).joyPrev = s.joyPrev := rfl
@[simp] theorem nextSlot_joyRaw (s : State) : (nextSlot s).joyRaw = s.joyRaw := rfl
@[simp] theorem nextSlot_slot (s : State) : (nextSlot s).slot = s.slot + 1 := rfl
@[simp] theorem nextSlot_irqEn (s : State) : (nextSlot s).irqEn = s.irqEn := rfl
@[simp] theorem nextSlot_out (s : State) : (nextSlot s).out = s.out := rfl
@[simp] theorem nextSlot_xp (s : State) : (nextSlot s).xp = s.xp := rfl
@[simp] theorem nextSlot_trace (s : State) : (nextSlot s).trace = s.trace := rfl
@[simp] theorem nextSlot_evlog (s : State) : (nextSlot s).evlog = s.evlog := rfl
@[simp] theorem nextSlot_fault (s : State) : (nextSlot s).fault = s.fault := rfl
@[simp] theorem nextSlot_refused (s : State) : (nextSlot s).refused = s.refused := rfl
@[simp] theorem nextSlot_cfg (s : State) : (nextSlot s).cfg = s.cfg := rfl
@[simp] theorem nextSlot_sched (s : State) : (nextSlot s).sched = s.sched := rfl
@[simp] theorem nextSlot_powerUps (s : State) : (nextSlot s).powerUps = s.powerUps := rfl

@[simp] theorem enableIrq_dec (s : State) : (enableIrq s).dec = s.dec := rfl
@[simp] theorem enableIrq_buf (s : State) : (enableIrq s).buf = s.buf := rfl
@[simp] theorem enableIrq_ip (s : State) : (enableIrq s).ip = s.ip := rfl
@[simp] theorem enableIrq_joyPrev (s : State) : (enableIrq s).joyPrev = s.joyPrev := rfl
@[simp] theorem enableIrq_joyRaw (s : State) : (enableIrq s).joyRaw = s.joyRaw := rfl
@[simp] theorem enableIrq_slot (s : State) : (enableIrq s).slot = s.slot := rfl
@[simp] theorem enableIrq_irqEn (s : State) : (enableIrq s).irqEn = true := rfl
@[simp] theorem enableIrq_out (s : State) : (enableIrq s).out = s.out := rfl
@[simp] theorem enableIrq_xp (s : State) : (enableIrq s).xp = s.xp := rfl
@[simp] theorem enableIrq_trace (s : State) : (enableIrq s).trace = s.trace := rfl
@[simp] theorem enableIrq_evlog (s : State) : (enableIrq s).evlog = s.evlog := rfl
@[simp] theorem enableIrq_fault (s : State) : (enableIrq s).fault = s.fault := rfl
@[simp] theorem enableIrq_refused (s : State) : (enableIrq s).refused = s.refused := rfl
@[simp] theorem enableIrq_cfg (s : State) : (enableIrq s).cfg = s.cfg := rfl
@[simp] theorem enableIrq_sched (s : State) : (enableIrq s).sched = s.sched := rfl
@[simp] theorem enableIrq_powerUps (s : State) : (enableIrq s).powerUps = s.powerUps := rfl

@[simp] theorem setLines_dec (s : State) (j : JoyId) (raw : BitVec 6) : (setLines j raw s).dec = s.dec := rfl
@[simp] theorem setLines_buf (s : State) (j : JoyId) (raw : BitVec 6) : (setLines j raw s).buf = s.buf := rfl
@[simp] theorem setLines_ip (s : State) (j : JoyId) (raw : BitVec 6) : (setLines j raw s).ip = s.ip := rfl
@[simp] theorem setLines_joyPrev (s : State) (j : JoyId) (raw : BitVec 6) : (setLines j raw s).joyPrev = s.joyPrev := rfl
@[simp] theorem setLines_joyRaw (s : State) (j : JoyId) (raw : BitVec 6) : (setLines j raw s).joyRaw = s.joyRaw.put j raw := rfl
@[simp] theorem setLines_slot (s : State) (j : JoyId) (raw : BitVec 6) : (setLines j raw s).slot = s.slot := rfl
@[simp] theorem setLines_irqEn (s : State) (j : JoyId) (raw : BitVec 6) : (setLines j raw s).irqEn = s.irqEn := rfl
@[simp] theorem setLines_out (s : State) (j : JoyId) (raw : BitVec 6) : (setLines j raw s).out = s.out := rfl
@[simp] theorem setLines_xp (s : State) (j : JoyId) (raw : BitVec 6) : (setLines j raw s).xp = s.xp := rfl
@[simp] theorem setLines_trace (s : State) (j : JoyId) (raw : BitVec 6) : (setLines j raw s).trace = s.trace := rfl
@[simp] theorem setLines_evlog (s : State) (j : JoyId) (raw : BitVec 6) : (setLines j raw s).evlog = s.evlog := rfl
@[simp] theorem setLines_fault (s : State) (j : JoyId) (raw : BitVec 6) : (setLines j raw s).fault = s.fault := rfl
@[simp] theorem setLines_refused (s : State) (j : JoyId) (raw : BitVec 6) : (setLines j raw s).refused = s.refused := rfl
@[simp] theorem setLines_cfg (s : State) (j : JoyId) (raw : BitVec 6) : (setLines j raw s).cfg = s.cfg := rfl
@[simp] theorem setLines_sched (s : State) (j : JoyId) (raw : BitVec 6) : (setLines j raw s).sched = s.sched := rfl
@[simp] theorem setLines_powerUps (s : State) (j : JoyId) (raw : BitVec 6) : (setLines j raw s).powerUps = s.powerUps := rfl

@[simp] theorem afterCall_dec (s : State) (c : DriverCall) : (afterCall s c).dec = s.dec := rfl
@[simp] theorem afterCall_buf (s : State) (c : DriverCall) : (afterCall s c).buf = s.buf := rfl
@[simp] theorem afterCall_ip (s : State) (c : DriverCall) : (afterCall s c).ip = s.ip := rfl
@[simp] theorem afterCall_joyPrev (s : State) (c : DriverCall) : (afterCall s c).joyPrev = s.joyPrev := rfl
@[simp] theorem afterCall_joyRaw (s : State) (c : DriverCall) : (afterCall s c).joyRaw = s.joyRaw := rfl
@[simp] theorem afterCall_slot (s : State) (c : DriverCall) : (afterCall s c).slot = s.slot := rfl
@[simp] theorem afterCall_irqEn (s : State) (c : DriverCall) : (afterCall s c).irqEn = s.irqEn := rfl
@[simp] theorem afterCall_out (s : State) (c : DriverCall) : (afterCall s c).out = quietWires := rfl
@[simp] theorem afterCall_xp (s : State) (c : DriverCall) : (afterCall s c).xp = writeCell s.xp (addrCell c.2) c.1 := rfl
@[simp] theorem afterCall_trace (s : State) (c : DriverCall) : (afterCall s c).trace = s.trace ++ [traceEntry c] := rfl
@[simp] theorem afterCall_evlog (s : State) (c : DriverCall) : (afterCall s c).evlog = s.evlog := rfl
@[simp] theorem afterCall_fault (s : State) (c : DriverCall) : (afterCall s c).fault = s.fault := rfl
@[simp] theorem afterCall_refused (s : State) (c : DriverCall) : (afterCall s c).refused = s.refused := rfl
@[simp] theorem afterCall_cfg (s : State) (c : DriverCall) : (afterCall s c).cfg = s.cfg := rfl
@[simp] theorem afterCall_sched (s : State) (c : DriverCall) : (afterCall s c).sched = s.sched := rfl
@[simp] theorem afterCall_powerUps (s : State) (c : DriverCall) : (afterCall s c).powerUps = s.powerUps := rfl

@[simp] theorem PerJoy.get_put_self (p : PerJoy) (j : JoyId) (v : BitVec 6) : (p.put j v).get j = v := by
  cases j <;> rfl

theorem PerJoy.get_put_other (p : PerJoy) {j k : JoyId} (h : j ≠ k) (v : BitVec 6) : (p.put j v).get k = p.get k := by
  cases j <;> cases k <;> first | rfl | exact absurd rfl h

end Sys2Proof.Machine
end

