-- ==== Sys2Proof/Laws/Ops.lean ====
section
/-! SUPPORT. What each shared operation can do, said once: outcomes in sequence, buffer memory, the driver, the buffer, the
joystick branch, the interpreter and the configuration checks. -/

namespace Sys2Proof.Machine

/-! ### Outcomes -/

@[simp] theorem andThen_next {α β : Type} (a : α) (f : α → Res β) : andThen (.next a) f = f a := rfl
@[simp] theorem andThen_fault {α β : Type} (r : Fault) (f : α → Res β) : andThen (.fault r) f = .fault r := rfl
@[simp] theorem andThen_refused {α β : Type} (r : Refusal) (f : α → Res β) : andThen (.refused r) f = .refused r := rfl

/-- A sequence that answers a next state answered one at each part. -/
theorem andThen_eq_next {α β : Type} {o : Res α} {f : α → Res β} {b : β} :
    andThen o f = .next b ↔ ∃ a, o = .next a ∧ f a = .next b := by
  cases o <;> simp

/-- An operation that answers a next state was selected. -/
theorem whenSelected_eq_next {sel : Bool} {m : String} {o : Res State} {t : State} :
    whenSelected sel m o = .next t ↔ sel = true ∧ o = .next t := by
  cases sel <;> simp [whenSelected]

@[simp] theorem whenSelected_true (m : String) (o : Res State) : whenSelected true m o = o := rfl

/-! ### Buffer memory -/

@[simp] theorem Memory.read_write_same (m : Memory) (i : Nat) (b : Byte) : (Memory.write m i b).read i = some b := by
  induction m with
  | nil => simp [Memory.write, Memory.read]
  | cons c rest ih =>
    obtain ⟨a, d⟩ := c
    simp only [Memory.write]
    split
    · simp [Memory.read]
    · split <;> simp_all [Memory.read]

theorem Memory.read_write_other (m : Memory) {i k : Nat} (h : k ≠ i) (b : Byte) :
    (Memory.write m i b).read k = m.read k := by
  induction m with
  | nil => simp [Memory.write, Memory.read, h.symm]
  | cons c rest ih =>
    obtain ⟨a, d⟩ := c
    simp only [Memory.write]
    split
    · simp [Memory.read, h.symm]
    · split
      · next hi => subst hi; simp [Memory.read, h.symm]
      · simp [Memory.read, ih]

/-- The first slot of a written memory is the written one or the old first one. -/
theorem Memory.write_head (m : Memory) (i : Nat) (b : Byte) (x : Host.Cell) (h : (Memory.write m i b).head? = some x) :
    x.1 = i ∨ m.head? = some x := by
  cases m with
  | nil => simp [Memory.write] at h; simp [← h]
  | cons c rest =>
    obtain ⟨a, d⟩ := c
    simp only [Memory.write] at h
    split at h
    · simp at h; simp [← h]
    · split at h <;> simp at h <;> simp [← h]

/-- A list is in canonical form when its tail is and its head lies below the tail's head. -/
theorem Memory.wf_cons (a : Nat) (d : Byte) (rest : Memory) :
    Memory.wf ((a, d) :: rest) = true ↔ (∀ x, rest.head? = some x → a < x.1) ∧ Memory.wf rest = true := by
  cases rest with
  | nil => simp [Memory.wf]
  | cons c tl => obtain ⟨b, e⟩ := c; simp [Memory.wf]

/-- A write keeps the canonical form. -/
theorem Memory.write_wf (m : Memory) (i : Nat) (b : Byte) (h : Memory.wf m = true) : Memory.wf (Memory.write m i b) = true := by
  induction m with
  | nil => rfl
  | cons c rest ih =>
    obtain ⟨a, d⟩ := c
    have hc := (Memory.wf_cons a d rest).1 h
    simp only [Memory.write]
    split
    · next hi => exact (Memory.wf_cons _ _ _).2 ⟨by simp [hi], h⟩
    · split
      · next hi => subst hi; exact (Memory.wf_cons _ _ _).2 hc
      · refine (Memory.wf_cons _ _ _).2 ⟨fun x hx => ?_, ih hc.2⟩
        rcases Memory.write_head _ _ _ _ hx with h1 | h1
        · omega
        · exact hc.1 x h1

/-- A write adds no slot but its own. -/
theorem Memory.mem_write (m : Memory) (i : Nat) (b : Byte) (x : Host.Cell) (h : x ∈ Memory.write m i b) :
    x = (i, b) ∨ x ∈ m := by
  induction m with
  | nil => simpa [Memory.write] using h
  | cons c rest ih =>
    obtain ⟨a, d⟩ := c
    simp only [Memory.write] at h
    split at h
    · simpa using h
    · split at h
      · simp only [List.mem_cons] at h ⊢; tauto
      · simp only [List.mem_cons] at h ⊢; tauto

/-- The reset state's memory is in canonical form. -/
theorem reset_mem_wf : Memory.wf State.reset.buf.mem = true := rfl

/-! ### The driver -/

theorem decodeX_remap (x : BitVec 4) : decodeX (remap x) = x := by revert x; decide

theorem setSwitch_sentinel {a : SwitchAddress} (h : isSentinel a = true) (on : Bool) (s : State) :
    setSwitch on a s = .fault .sentinelAtDriver := by simp [setSwitch, h]

/-- The four wire phases and the array's response come to one crosspoint write (R84, R85). -/
theorem setSwitch_ok {a : SwitchAddress} (h : isSentinel a = false) (on : Bool) (s : State) :
    setSwitch on a s = .next (afterCall s (on, a)) := by
  simp [setSwitch, h, State.present, State.strobe, State.arrayResponds, State.quiesce, State.record, afterCall, quietWires,
    writeCell, addrCell, decodeX_remap]

theorem runCalls_ok (cs : List DriverCall) (s : State) (h : ∀ c ∈ cs, isSentinel c.2 = false) :
    runCalls cs s = .next (afterCalls s cs) := by
  induction cs generalizing s with
  | nil => rfl
  | cons c rest ih =>
    simp only [runCalls, setSwitch_ok (h c (by simp)), andThen_next]
    exact ih _ fun d hd => h d (by simp [hd])

/-- Driver calls that answer a next state hold no sentinel and leave the plain effect of the calls. -/
theorem runCalls_next {cs : List DriverCall} {s t : State} (h : runCalls cs s = .next t) :
    (∀ c ∈ cs, isSentinel c.2 = false) ∧ t = afterCalls s cs := by
  induction cs generalizing s with
  | nil => simp only [runCalls, Host.Outcome.next.injEq] at h; exact ⟨by simp, h.symm⟩
  | cons c rest ih =>
    simp only [runCalls] at h
    cases hc : isSentinel c.2 with
    | true => simp [setSwitch_sentinel hc] at h
    | false =>
      rw [setSwitch_ok hc, andThen_next] at h
      obtain ⟨h1, h2⟩ := ih h
      exact ⟨by simpa [hc] using h1, h2⟩

/-- Driver calls end in a next state or in the sentinel fault. -/
theorem runCalls_cases (cs : List DriverCall) (s : State) :
    runCalls cs s = .next (afterCalls s cs) ∨ runCalls cs s = .fault .sentinelAtDriver := by
  induction cs generalizing s with
  | nil => exact .inl rfl
  | cons c rest ih =>
    simp only [runCalls]
    cases hc : isSentinel c.2 with
    | true => simp [setSwitch_sentinel hc]
    | false => rw [setSwitch_ok hc, andThen_next]; exact ih _

@[simp] theorem afterCalls_nil (s : State) : afterCalls s [] = s := rfl
@[simp] theorem afterCalls_cons (s : State) (c : DriverCall) (cs : List DriverCall) :
    afterCalls s (c :: cs) = afterCalls (afterCall s c) cs := rfl
theorem afterCalls_append (s : State) (cs ds : List DriverCall) :
    afterCalls s (cs ++ ds) = afterCalls (afterCalls s cs) ds := List.foldl_append

/-- Driver calls change the wires, the crosspoints and the trace, and nothing else. -/
theorem afterCalls_frame (s : State) (cs : List DriverCall) :
    afterCalls s cs =
      { s with out := (afterCalls s cs).out, xp := (afterCalls s cs).xp, trace := (afterCalls s cs).trace } := by
  induction cs generalizing s with
  | nil => rfl
  | cons c rest ih => rw [afterCalls_cons, ih]; rfl

@[simp] theorem afterCalls_dec (s : State) (cs : List DriverCall) : (afterCalls s cs).dec = s.dec := by rw [afterCalls_frame]
@[simp] theorem afterCalls_buf (s : State) (cs : List DriverCall) : (afterCalls s cs).buf = s.buf := by rw [afterCalls_frame]
@[simp] theorem afterCalls_ip (s : State) (cs : List DriverCall) : (afterCalls s cs).ip = s.ip := by rw [afterCalls_frame]
@[simp] theorem afterCalls_joyPrev (s : State) (cs : List DriverCall) : (afterCalls s cs).joyPrev = s.joyPrev := by
  rw [afterCalls_frame]
@[simp] theorem afterCalls_joyRaw (s : State) (cs : List DriverCall) : (afterCalls s cs).joyRaw = s.joyRaw := by
  rw [afterCalls_frame]
@[simp] theorem afterCalls_slot (s : State) (cs : List DriverCall) : (afterCalls s cs).slot = s.slot := by rw [afterCalls_frame]
@[simp] theorem afterCalls_irqEn (s : State) (cs : List DriverCall) : (afterCalls s cs).irqEn = s.irqEn := by
  rw [afterCalls_frame]
@[simp] theorem afterCalls_evlog (s : State) (cs : List DriverCall) : (afterCalls s cs).evlog = s.evlog := by
  rw [afterCalls_frame]
@[simp] theorem afterCalls_fault (s : State) (cs : List DriverCall) : (afterCalls s cs).fault = s.fault := by
  rw [afterCalls_frame]
@[simp] theorem afterCalls_refused (s : State) (cs : List DriverCall) : (afterCalls s cs).refused = s.refused := by
  rw [afterCalls_frame]
@[simp] theorem afterCalls_cfg (s : State) (cs : List DriverCall) : (afterCalls s cs).cfg = s.cfg := by rw [afterCalls_frame]
@[simp] theorem afterCalls_sched (s : State) (cs : List DriverCall) : (afterCalls s cs).sched = s.sched := by
  rw [afterCalls_frame]
@[simp] theorem afterCalls_powerUps (s : State) (cs : List DriverCall) : (afterCalls s cs).powerUps = s.powerUps := by
  rw [afterCalls_frame]

@[simp] theorem afterCalls_trace (s : State) (cs : List DriverCall) :
    (afterCalls s cs).trace = s.trace ++ cs.map traceEntry := by
  induction cs generalizing s with
  | nil => simp
  | cons c rest ih => simp [ih]

/-- After at least one call the wires are quiet (R84, R88). -/
theorem afterCalls_out {cs : List DriverCall} (s : State) (h : cs ≠ []) : (afterCalls s cs).out = quietWires := by
  induction cs generalizing s with
  | nil => exact absurd rfl h
  | cons c rest ih =>
    cases rest with
    | nil => rfl
    | cons d tl => exact ih _ (by simp)

/-- Calls keep quiet wires quiet. -/
theorem afterCalls_out_quiet (s : State) (cs : List DriverCall) (h : s.out = quietWires) :
    (afterCalls s cs).out = quietWires := by
  cases cs with
  | nil => exact h
  | cons c rest => exact afterCalls_out s (by simp)

theorem afterCall_closed (s : State) (k : DriverCall) (c : BitVec 6) :
    (afterCall s k).closed c = if addrCell k.2 = c then k.1 else s.closed c := by
  simp [State.closed, writeCell, Vector.getElem_set, BitVec.toNat_inj]

/-- A crosspoint after driver calls holds what the last call on it wrote (R91). -/
theorem afterCalls_closed (s : State) (cs : List DriverCall) (c : BitVec 6) :
    (afterCalls s cs).closed c = lastWrite cs c (s.closed c) := by
  induction cs generalizing s with
  | nil => rfl
  | cons k rest ih => simp [ih, lastWrite, afterCall_closed]

/-! ### The calls the components make -/

/-- INTERP_RESOLVE never passes a sentinel (R122). -/
theorem resolveCalls_noSentinel (rel ext : Bit) (e : ScanEntry) : ∀ c ∈ resolveCalls rel ext e, isSentinel c.2 = false := by
  intro c hc
  simp only [resolveCalls, List.mem_map, List.mem_filter, Bool.not_eq_true'] at hc
  obtain ⟨a, ⟨-, ha⟩, rfl⟩ := hc
  exact ha

theorem isSentinel_mkAddr (x : BitVec 4) (y : BitVec 2) : isSentinel (mkAddr x y) = false := by revert x y; decide

/-- MATRIX_RESET never passes a sentinel (R89). -/
theorem matrixCalls_noSentinel : ∀ c ∈ matrixCalls, isSentinel c.2 = false := by
  intro c hc
  simp only [matrixCalls, List.mem_flatMap, List.mem_map] at hc
  obtain ⟨x, -, y, -, rfl⟩ := hc
  exact isSentinel_mkAddr _ _

/-- Every address a joystick's names have is listed in its table. -/
theorem tableAddr_mem (t : JoyTable) (n : JoyName) : tableAddr t n ∈ tableAll t := by
  cases n <;> simp [tableAddr, tableAll]

theorem joyAddr_noSentinel {cfg : Configuration} {j : JoyId} (h : joyTableOk cfg j = true) (n : JoyName) :
    isSentinel (joyAddr cfg j n) = false := by
  have := (List.all_eq_true.1 h) _ (tableAddr_mem (joyTable cfg j) n)
  simpa [joyAddr] using this

theorem joyCalls_noSentinel {cfg : Configuration} {j : JoyId} (h : joyTableOk cfg j = true) (s : Snapshot) :
    ∀ c ∈ joyCalls cfg j s, isSentinel c.2 = false := by
  intro c hc
  have hn := joyAddr_noSentinel h
  simp only [joyCalls, openCalls, closeCalls, List.mem_append, List.mem_cons, List.not_mem_nil, or_false, List.mem_map] at hc
  rcases hc with ((rfl | rfl) | ⟨n, -, rfl⟩) | ⟨n, -, rfl⟩ <;> exact hn _

/-! ### Configuration checks -/

theorem failedCheck_none {cfg : Configuration} : failedCheck cfg = none ↔ cfgWellFormed cfg = true := by
  simp [failedCheck, cfgWellFormed]

/-- A well-formed configuration has no sentinel in either joystick table. -/
theorem joyTableOk_of_wellFormed {cfg : Configuration} (h : cfgWellFormed cfg = true) (j : JoyId) : joyTableOk cfg j = true := by
  have h1 : passes cfg .joyNoSentinel = true := List.all_eq_true.1 h _ (by decide)
  simp only [passes, List.all_append, Bool.and_eq_true] at h1
  cases j
  · exact h1.1
  · exact h1.2

/-! ### The buffer -/

/-- PUSH inside the ring: the byte written, the tail advanced, and on a full ring the oldest byte dropped (R95, R96). -/
theorem bufPush_eq (b : Byte) (s : State) (h : s.buf.tail < s.slots) :
    bufPush b s = .next
      (if (s.buf.tail + 1) % s.slots = s.buf.head then
        { s with
          buf := ⟨Memory.write s.buf.mem s.buf.tail b, (s.buf.head + 1) % s.slots, (s.buf.tail + 1) % s.slots⟩
          evlog := s.evlog ++ [.overflow
            (State.slotByte { s with buf := { s.buf with mem := Memory.write s.buf.mem s.buf.tail b } } s.buf.head)] }
      else { s with buf := ⟨Memory.write s.buf.mem s.buf.tail b, s.buf.head, (s.buf.tail + 1) % s.slots⟩ }) := by
  simp only [bufPush, h, if_true]
  split <;> rfl

theorem bufPush_next {b : Byte} {s t : State} (h : bufPush b s = .next t) : s.buf.tail < s.slots := by
  by_contra hn
  simp [bufPush, hn] at h

/-- PUSH changes the buffer and the event log, and nothing else. -/
theorem bufPush_frame {b : Byte} {s t : State} (h : bufPush b s = .next t) : t = { s with buf := t.buf, evlog := t.evlog } := by
  rw [bufPush_eq b s (bufPush_next h)] at h
  split at h <;> (simp only [Host.Outcome.next.injEq] at h; subst h; rfl)

/-- PUSH neither reads nor writes the decoder. -/
theorem bufPush_dec (b : Byte) (s : State) (d : Decoder) :
    bufPush b { s with dec := d } = mapNext (fun t => { t with dec := d }) (bufPush b s) := by
  simp only [bufPush, mapNext, State.slots]
  by_cases h : s.buf.tail < slotCount s.cfg
  · simp only [h, if_true]
    by_cases h2 : (s.buf.tail + 1) % slotCount s.cfg = s.buf.head
    · simp only [h2, if_true]; rfl
    · simp only [h2, if_false]; rfl
  · simp only [h, if_false]; rfl

/-- PUSH neither reads nor writes anything but the buffer, its capacity and its unwritten bytes, and adds its event to any
log. -/
theorem bufPush_withOthers (b : Byte) (s p : State) :
    bufPush b (s.withOthers p) = mapNext (fun t => t.withOthers p) (bufPush b s) := by
  by_cases h : s.buf.tail < s.slots
  · rw [bufPush_eq b s h, bufPush_eq b (s.withOthers p) h]
    by_cases h2 : (s.buf.tail + 1) % s.slots = s.buf.head
    · rw [if_pos h2]
      refine congrArg _ ((if_pos h2).trans ?_)
      simp [State.withOthers, State.slotByte, State.slots, slotCount]
    · rw [if_neg h2]
      exact congrArg _ (if_neg h2)
  · rw [show bufPush b s = .refused .noSuchSlot from if_neg h]
    exact if_neg h

theorem bufPop_empty {s : State} (h : s.buf.head = s.buf.tail) : bufPop s = .next (none, s) := by simp [bufPop, h]

theorem bufPop_some {s : State} (h : s.buf.head ≠ s.buf.tail) (hd : s.buf.head < s.slots) :
    bufPop s = .next (some (s.slotByte s.buf.head), { s with buf := { s.buf with head := (s.buf.head + 1) % s.slots } }) := by
  simp [bufPop, h, hd]

/-- POP answers a next state in two ways (R97). -/
theorem bufPop_next {s : State} {p : Option Byte × State} (h : bufPop s = .next p) :
    (s.buf.head = s.buf.tail ∧ p = (none, s)) ∨
    (s.buf.head ≠ s.buf.tail ∧ s.buf.head < s.slots ∧
      p = (some (s.slotByte s.buf.head), { s with buf := { s.buf with head := (s.buf.head + 1) % s.slots } })) := by
  unfold bufPop at h
  split at h
  · next he => cases h; exact .inl ⟨he, rfl⟩
  · split at h
    · next he hl => cases h; exact .inr ⟨he, hl, rfl⟩
    · cases h

/-! ### The decoder -/

/-- The end of a frame answers a next state by pushing the data byte or by logging the reject, and resets the frame
(R107, R109). -/
theorem endFrame_next {v : Bit} {s t : State} (h : endFrame v s = .next t) :
    (Decoder.accepts { s.dec with stop := v } = true ∧
      ∃ p, bufPush s.dec.data { s with dec := { s.dec with stop := v } } = .next p ∧ t = frameReset p) ∨
    (Decoder.accepts { s.dec with stop := v } = false ∧
      t = frameReset (State.emit { s with dec := { s.dec with stop := v } }
        (Decoder.framingEvent { s.dec with stop := v }))) := by
  unfold endFrame at h
  simp only at h
  split at h
  · next ha =>
    obtain ⟨p, hp, ht⟩ := andThen_eq_next.1 h
    simp only [Host.Outcome.next.injEq] at ht
    exact .inl ⟨ha, p, hp, ht.symm⟩
  · next ha =>
    simp only [Host.Outcome.next.injEq] at h
    exact .inr ⟨by simpa using ha, h.symm⟩

/-! ### Joysticks -/

/-- The change branch on a table without sentinels (R136). -/
theorem joyChange_eq {j : JoyId} {s : State} (h : joyTableOk s.cfg j = true) (snap : Snapshot) :
    joyChange j snap s = .next
      { afterCalls s (joyCalls s.cfg j snap) with
        evlog := if nibbleInvalid (nibble snap) then s.evlog ++ [.joyInvalid j snap] else s.evlog
        joyPrev := s.joyPrev.put j snap } := by
  simp only [joyChange, runCalls_ok _ _ (joyCalls_noSentinel h snap), andThen_next]
  split <;> simp [State.emit]

/-- A change branch that answers a next state, whatever the table. -/
theorem joyChange_next {j : JoyId} {snap : Snapshot} {s t : State} (h : joyChange j snap s = .next t) :
    (∀ c ∈ joyCalls s.cfg j snap, isSentinel c.2 = false) ∧
    t = { afterCalls s (joyCalls s.cfg j snap) with
          evlog := if nibbleInvalid (nibble snap) then s.evlog ++ [.joyInvalid j snap] else s.evlog
          joyPrev := s.joyPrev.put j snap } := by
  unfold joyChange at h
  obtain ⟨p, hp, ht⟩ := andThen_eq_next.1 h
  obtain ⟨hs, rfl⟩ := runCalls_next hp
  simp only [Host.Outcome.next.injEq] at ht
  subst ht
  refine ⟨hs, ?_⟩
  split <;> simp [State.emit]

/-! ### The interpreter -/

/-- INTERP_RESOLVE always answers a next state (R121 to R123). -/
theorem interpResolveOp_eq (e : ScanEntry) (s : State) :
    interpResolveOp e s = .next { afterCalls s (resolveCalls s.ip.rel s.ip.ext e) with ip := ⟨false, false⟩ } := by
  simp [interpResolveOp, runCalls_ok _ _ (resolveCalls_noSentinel _ _ _), Flags.clear]

/-- Every sub-operation of INTERP answers a next state. -/
theorem interpByte_next (b : Byte) (s : State) : ∃ t, interpByte b s = .next t := by
  unfold interpByte
  split <;> simp [interpRelOp, interpExtOp, interpResolveOp_eq, interpUnrecognizedOp]

end Sys2Proof.Machine
end

