-- ==== Sys2Proof/Laws/PerInstr.lean ====
section
/-! SUPPORT. Per operation: the encoder writes the number of the format that spec/30 gives the operation's row, which is never
the number of the bare bits. -/

namespace Sys2Proof.Laws.Format

/-- The number of the format of an operation's row. -/
def number : Instr → Nat
  | .edgeStart _ => tagPos
  | .edgeData _ _ => tagPos
  | .edgeParity _ => tagPos
  | .edgeStop _ => tagPos
  | .frameAccept _ _ => tagFrame
  | .frameReject _ => tagFrame
  | .push _ => tagPush
  | .pop => tagPop
  | .interpEmpty => tagEmpty
  | .interpRel => tagScan
  | .interpExtA => tagScan
  | .interpExtB => tagScan
  | .interpResolve _ => tagScan
  | .interpUnrecognized _ => tagScan
  | .joypollSame _ _ => tagSnap
  | .joypollNone _ _ _ => tagSnap
  | .joypollNoneInvalidUd _ _ _ _ _ => tagSnap
  | .joypollNoneInvalidLr _ _ _ _ _ => tagSnap
  | .joypollU _ _ _ => tagSnap
  | .joypollD _ _ _ => tagSnap
  | .joypollL _ _ _ => tagSnap
  | .joypollR _ _ _ => tagSnap
  | .joypollUl _ _ _ => tagSnap
  | .joypollUr _ _ _ => tagSnap
  | .joypollDr _ _ _ => tagSnap
  | .joypollDl _ _ _ => tagSnap
  | .setswitchOn _ => tagSwitch
  | .setswitchOff _ => tagSwitch
  | .setswitchSentinel _ _ => tagSwitch
  | .matrixReset => tagMatrix
  | .dispatchJoyL => tagSlot
  | .dispatchJoyR => tagSlot
  | .dispatchInterp => tagSlot
  | .reset => tagReset

/-- The operation word carries the row's format number under every configuration. -/
def Statement (i : Instr) : Prop :=
  ∀ cfg : Configuration, (encode cfg i).extractLsb' 24 8 = BitVec.ofNat 8 (number i) ∧ number i ≠ tagBare

theorem edgeStart (v : Bit) : Statement (.edgeStart v) := fun _ => ⟨opWord_tag _ _ _, (by decide : tagPos ≠ tagBare)⟩
theorem edgeData (k : Fin 8) (v : Bit) : Statement (.edgeData k v) := fun _ => ⟨opWord_tag _ _ _, (by decide : tagPos ≠ tagBare)⟩
theorem edgeParity (v : Bit) : Statement (.edgeParity v) := fun _ => ⟨opWord_tag _ _ _, (by decide : tagPos ≠ tagBare)⟩
theorem edgeStop (v : Bit) : Statement (.edgeStop v) := fun _ => ⟨opWord_tag _ _ _, (by decide : tagPos ≠ tagBare)⟩
theorem frameAccept (d : Byte) (p : Bit) : Statement (.frameAccept d p) := fun _ => ⟨opWord_tag _ _ _, (by decide : tagFrame ≠ tagBare)⟩
theorem frameReject (w : FrameWord) : Statement (.frameReject w) := fun _ => ⟨opWord_tag _ _ _, (by decide : tagFrame ≠ tagBare)⟩
theorem push (b : Byte) : Statement (.push b) := fun _ => ⟨opWord_tag _ _ _, (by decide : tagPush ≠ tagBare)⟩
theorem pop : Statement (.pop) := fun _ => ⟨opWord_tag _ _ _, (by decide : tagPop ≠ tagBare)⟩
theorem interpEmpty : Statement (.interpEmpty) := fun _ => ⟨opWord_tag _ _ _, (by decide : tagEmpty ≠ tagBare)⟩
theorem interpRel : Statement (.interpRel) := fun _ => ⟨opWord_tag _ _ _, (by decide : tagScan ≠ tagBare)⟩
theorem interpExtA : Statement (.interpExtA) := fun _ => ⟨opWord_tag _ _ _, (by decide : tagScan ≠ tagBare)⟩
theorem interpExtB : Statement (.interpExtB) := fun _ => ⟨opWord_tag _ _ _, (by decide : tagScan ≠ tagBare)⟩
theorem interpResolve (b : Byte) : Statement (.interpResolve b) := fun _ => ⟨opWord_tag _ _ _, (by decide : tagScan ≠ tagBare)⟩
theorem interpUnrecognized (b : Byte) : Statement (.interpUnrecognized b) := fun _ => ⟨opWord_tag _ _ _, (by decide : tagScan ≠ tagBare)⟩
theorem joypollSame (j : JoyId) (s : Snapshot) : Statement (.joypollSame j s) := fun _ => ⟨opWord_tag _ _ _, (by decide : tagSnap ≠ tagBare)⟩
theorem joypollNone (j : JoyId) (b1 b2 : Bit) : Statement (.joypollNone j b1 b2) := fun _ => ⟨opWord_tag _ _ _, (by decide : tagSnap ≠ tagBare)⟩
theorem joypollNoneInvalidUd (j : JoyId) (l r b1 b2 : Bit) : Statement (.joypollNoneInvalidUd j l r b1 b2) := fun _ => ⟨opWord_tag _ _ _, (by decide : tagSnap ≠ tagBare)⟩
theorem joypollNoneInvalidLr (j : JoyId) (u d b1 b2 : Bit) : Statement (.joypollNoneInvalidLr j u d b1 b2) := fun _ => ⟨opWord_tag _ _ _, (by decide : tagSnap ≠ tagBare)⟩
theorem joypollU (j : JoyId) (b1 b2 : Bit) : Statement (.joypollU j b1 b2) := fun _ => ⟨opWord_tag _ _ _, (by decide : tagSnap ≠ tagBare)⟩
theorem joypollD (j : JoyId) (b1 b2 : Bit) : Statement (.joypollD j b1 b2) := fun _ => ⟨opWord_tag _ _ _, (by decide : tagSnap ≠ tagBare)⟩
theorem joypollL (j : JoyId) (b1 b2 : Bit) : Statement (.joypollL j b1 b2) := fun _ => ⟨opWord_tag _ _ _, (by decide : tagSnap ≠ tagBare)⟩
theorem joypollR (j : JoyId) (b1 b2 : Bit) : Statement (.joypollR j b1 b2) := fun _ => ⟨opWord_tag _ _ _, (by decide : tagSnap ≠ tagBare)⟩
theorem joypollUl (j : JoyId) (b1 b2 : Bit) : Statement (.joypollUl j b1 b2) := fun _ => ⟨opWord_tag _ _ _, (by decide : tagSnap ≠ tagBare)⟩
theorem joypollUr (j : JoyId) (b1 b2 : Bit) : Statement (.joypollUr j b1 b2) := fun _ => ⟨opWord_tag _ _ _, (by decide : tagSnap ≠ tagBare)⟩
theorem joypollDr (j : JoyId) (b1 b2 : Bit) : Statement (.joypollDr j b1 b2) := fun _ => ⟨opWord_tag _ _ _, (by decide : tagSnap ≠ tagBare)⟩
theorem joypollDl (j : JoyId) (b1 b2 : Bit) : Statement (.joypollDl j b1 b2) := fun _ => ⟨opWord_tag _ _ _, (by decide : tagSnap ≠ tagBare)⟩
theorem setswitchOn (a : BitVec 7) : Statement (.setswitchOn a) := fun _ => ⟨opWord_tag _ _ _, (by decide : tagSwitch ≠ tagBare)⟩
theorem setswitchOff (a : BitVec 7) : Statement (.setswitchOff a) := fun _ => ⟨opWord_tag _ _ _, (by decide : tagSwitch ≠ tagBare)⟩
theorem setswitchSentinel (on : Bit) (a : BitVec 7) : Statement (.setswitchSentinel on a) := fun _ => ⟨opWord_tag _ _ _, (by decide : tagSwitch ≠ tagBare)⟩
theorem matrixReset : Statement (.matrixReset) := fun _ => ⟨opWord_tag _ _ _, (by decide : tagMatrix ≠ tagBare)⟩
theorem dispatchJoyL : Statement (.dispatchJoyL) := fun _ => ⟨opWord_tag _ _ _, (by decide : tagSlot ≠ tagBare)⟩
theorem dispatchJoyR : Statement (.dispatchJoyR) := fun _ => ⟨opWord_tag _ _ _, (by decide : tagSlot ≠ tagBare)⟩
theorem dispatchInterp : Statement (.dispatchInterp) := fun _ => ⟨opWord_tag _ _ _, (by decide : tagSlot ≠ tagBare)⟩
theorem reset : Statement (.reset) := fun _ => ⟨opWord_tag _ _ _, (by decide : tagReset ≠ tagBare)⟩

end Sys2Proof.Laws.Format
end

