-- ==== Sys2Proof/Tests/Slice0.lean ====
section
/-! SUPPORT. The model's own tests. Expected results are the vectors of spec/95 (cited by their ids) and words written out from
the formats of spec/30. First the tests of the pieces, then one witness for each statement with hypotheses. -/

namespace Sys2Proof.Tests

open Sys2Proof.Machine

/-! ### Small states -/

/-- After boot, with an empty trace. -/
def quick : State := { State.reset with trace := [] }

/-- The same with room for three bytes (C = 3 of spec/95 section 3.2). -/
def ring (mem : Memory) (head tail : Nat) : State :=
  { quick with cfg := { excfg with cap := 3 }, buf := ⟨mem, head, tail⟩ }

/-- The decoder in a given place of a frame. -/
def decoding (pos : BitVec 4) (data : Byte) (par : BitVec 4) (start : Bit) : State :=
  { quick with dec := ⟨pos, data, start, false, par⟩ }

/-- The interpreter with given flags. -/
def flags (rel ext : Bit) : State := { quick with ip := ⟨rel, ext⟩ }

/-- Joystick L with a given previous snapshot. -/
def stick (prev : Snapshot) : State := { quick with joyPrev := ⟨prev, 0#6⟩ }

/-- The driver calls in the trace. -/
def calls (o : Res State) : Option (List DriverCall) := (nextOf o).map fun t => t.trace.map fun c => (c.on, c.addr)

/-- The select words in the trace. -/
def sels (o : Res State) : Option (List Byte) := (nextOf o).map fun t => t.trace.map fun c => c.sel

/-- One field of the next state. -/
def field {α : Type} (f : State → α) (o : Res State) : Option α := (nextOf o).map f

/-- A configuration changed from EXCFG in its scan table. -/
def withTable (l : List (Byte × ScanEntry)) : Configuration := { excfg with scanTable := l ++ excfg.scanTable }

/-! ### Well-formedness: one ill-formed term for each check -/

theorem test_ill_acceptOdd : failedInstrCheck excfg (.frameAccept 0x1C true) = some .acceptOdd := by decide
theorem test_ill_rejectInvalid : failedInstrCheck excfg (.frameReject 0x438) = some .rejectInvalid := by decide
theorem test_ill_lrNotAll : failedInstrCheck excfg (.joypollNoneInvalidLr .l true true false false) = some .lrNotAll := by decide
theorem test_ill_resolveCode : failedInstrCheck excfg (.interpResolve 0x42) = some .resolveCode := by decide
theorem test_ill_ignoredCode : failedInstrCheck excfg (.interpUnrecognized 0x1C) = some .ignoredCode := by decide
theorem test_well_formed : WellFormed excfg (.frameAccept 0x1C false) = true ∧ WellFormed excfg (.frameReject 0x439) = true ∧
    WellFormed excfg (.joypollNoneInvalidLr .r true false true false) = true ∧ WellFormed excfg (.interpResolve 0x75) = true ∧
    WellFormed excfg (.interpUnrecognized 0x42) = true := by decide

theorem test_cfg_excfg : failedCheck excfg = none := by decide
theorem test_cfg_cap : failedCheck { excfg with cap := 0 } = some .cap := by decide
theorem test_cfg_prefixDistinct : failedCheck { excfg with extCodeB := 0xE0 } = some .prefixDistinct := by decide
theorem test_cfg_prefixTags : failedCheck (withTable [(0x12, .setRelease)]) = some .prefixTags := by decide
theorem test_cfg_prefixTags_missing : failedCheck (withTable [(0xF0, .ignore)]) = some .prefixTags := by decide
theorem test_cfg_resolveLen : failedCheck (withTable [(0x12, .resolve [] [1, 2, 3])]) = some .resolveLen := by decide
theorem test_cfg_reservedBit : failedCheck (withTable [(0x12, .resolve [0x40] [])]) = some .reservedBit := by decide
theorem test_cfg_joyNoSentinel : failedCheck { excfg with joyL := { excfg.joyL with b2 := 0x80 } } = some .joyNoSentinel := by
  decide
theorem test_cfg_order : failedCheck { excfg with order := ⟨.joyL, .joyL, .interp⟩ } = some .order := by decide

/-! ### Decoding: words written out bit by bit from spec/30, one or more for each constructor -/

/-- SEL-POS: the position in bits 3:0, the sample in bit 16. -/
theorem test_decode_edges :
    decode excfg 0b00000001000000000000000000000001#32 = .ok (.edgeStart false) ∧
    decode excfg 0b00000001000000010000000000000010#32 = .ok (.edgeData 0 true) ∧
    decode excfg 0b00000001000000000000000000001001#32 = .ok (.edgeData 7 false) ∧
    decode excfg 0b00000001000000010000000000001010#32 = .ok (.edgeParity true) ∧
    decode excfg 0b00000001000000000000000000001011#32 = .ok (.edgeStop false) ∧
    decode excfg 0b00000001000000000000000000001100#32 = .error .position ∧
    decode excfg 0b00000001000000000000000000000000#32 = .error .position := by decide

/-- F-FRAME: W[10] stop, W[9] parity, W[8:1] data, W[0] start (vectors F1 to F4). -/
theorem test_decode_frames :
    decode excfg 0b00000010000000000000010000111000#32 = .ok (.frameAccept 0x1C false) ∧
    decode excfg 0b00000010000000000000011000000000#32 = .ok (.frameAccept 0x00 true) ∧
    decode excfg 0b00000010000000000000010000111001#32 = .ok (.frameReject 0x439) ∧
    decode excfg 0b00000010000000000000000000111000#32 = .ok (.frameReject 0x038) ∧
    decode excfg 0b00000010000000000000011000111000#32 = .ok (.frameReject 0x638) := by decide

theorem test_decode_queue :
    decode excfg 0b00000011000000000000000011010100#32 = .ok (.push 0xD4) ∧
    decode excfg 0b00000100000000000000000000000000#32 = .ok .pop ∧
    decode excfg 0b00000100000000000000000000000001#32 = .error .reservedBits := by decide

/-- F-SCAN: the popped byte through SCAN_TABLE. -/
theorem test_decode_scan :
    decode excfg 0b00000101000000000000000000000000#32 = .ok .interpEmpty ∧
    decode excfg 0b00000110000000000000000011110000#32 = .ok .interpRel ∧
    decode excfg 0b00000110000000000000000011100000#32 = .ok .interpExtA ∧
    decode excfg 0b00000110000000000000000011100001#32 = .ok .interpExtB ∧
    decode excfg 0b00000110000000000000000000010001#32 = .ok (.interpResolve 0x11) ∧
    decode excfg 0b00000110000000000000000001000010#32 = .ok (.interpUnrecognized 0x42) := by decide

/-- F-SNAP: B2 B1 R L D U in bits 5:0, the joystick in bit 16, "equals prev" in bit 17 (vectors J2 to J20). -/
theorem test_decode_snapshots :
    decode excfg 0b00000111000000100000000000000101#32 = .ok (.joypollSame .l 0b000101) ∧
    decode excfg 0b00000111000000000000000000100000#32 = .ok (.joypollNone .l false true) ∧
    decode excfg 0b00000111000000000000000000000111#32 = .ok (.joypollNoneInvalidUd .l true false false false) ∧
    decode excfg 0b00000111000000000000000000001111#32 = .ok (.joypollNoneInvalidUd .l true true false false) ∧
    decode excfg 0b00000111000000000000000000011101#32 = .ok (.joypollNoneInvalidLr .l true false true false) ∧
    decode excfg 0b00000111000000010000000000000001#32 = .ok (.joypollU .r false false) ∧
    decode excfg 0b00000111000000000000000000000010#32 = .ok (.joypollD .l false false) ∧
    decode excfg 0b00000111000000000000000000010100#32 = .ok (.joypollL .l true false) ∧
    decode excfg 0b00000111000000000000000000001000#32 = .ok (.joypollR .l false false) := by decide

theorem test_decode_diagonals :
    decode excfg 0b00000111000000000000000000000101#32 = .ok (.joypollUl .l false false) ∧
    decode excfg 0b00000111000000000000000000101001#32 = .ok (.joypollUr .l false true) ∧
    decode excfg 0b00000111000000010000000000001010#32 = .ok (.joypollDr .r false false) ∧
    decode excfg 0b00000111000000000000000000110110#32 = .ok (.joypollDl .l true true) := by decide

/-- F-SWADDR: the sentinel in bit 7, Y in bits 5:4, X in bits 3:0, `on` in bit 16 (vectors W2, W3, W13). -/
theorem test_decode_driver :
    decode excfg 0b00001000000000010000000000101100#32 = .ok (.setswitchOn 0x2C) ∧
    decode excfg 0b00001000000000000000000000101100#32 = .ok (.setswitchOff 0x2C) ∧
    decode excfg 0b00001000000000010000000010000000#32 = .ok (.setswitchSentinel true 0x00) ∧
    decode excfg 0b00001010000000000000000000000000#32 = .ok .matrixReset := by decide

theorem test_decode_slots :
    decode excfg 0b00001001000000000000000000000000#32 = .ok .dispatchJoyL ∧
    decode excfg 0b00001001000000000000000000000001#32 = .ok .dispatchJoyR ∧
    decode excfg 0b00001001000000000000000000000010#32 = .ok .dispatchInterp ∧
    decode excfg 0b00001001000000000000000000000011#32 = .error .slot ∧
    decode excfg 0b00001011000000000000000000000000#32 = .ok .reset ∧
    decode excfg 0b00001100000000000000000000000000#32 = .error .format := by decide

/-- The bare bits of table rows (log 2). -/
theorem test_decode_bare :
    decodeTableWord 4 0x1 = some (.edgeStart false) ∧ decodeTableWord 11 0x438 = some (.frameAccept 0x1C false) ∧
    decodeTableWord 8 0x9 = some (.joypollUr .l false false) ∧ decodeTableWord 8 0x80 = some (.setswitchSentinel false 0) ∧
    decodeTableWord 8 0x7F = some (.setswitchOff 0x7F) ∧ decodeTableWord 16 0x800 = none := by decide

/-- Encoding against the same words. -/
theorem test_encode :
    encode excfg (.edgeData 2 true) = 0x01010004#32 ∧ encode excfg (.frameAccept 0x1C false) = 0x02000438#32 ∧
    encode excfg (.joypollDr .r false false) = 0x0701000A#32 ∧ encode excfg (.setswitchSentinel true 0) = 0x08010080#32 := by
  decide

/-! ### The serial decoder (vectors D1 to D12) -/

theorem test_d2_start : field (·.dec) (exec (.edgeStart true) (decoding 1 0 0 false)) = some ⟨2, 0, true, false, 0⟩ := by decide
theorem test_d4_data : field (·.dec) (exec (.edgeData 2 true) (decoding 4 0x01 1 false)) = some ⟨5, 0x05, false, false, 2⟩ := by
  decide
theorem test_d6_data : field (·.dec) (exec (.edgeData 7 true) (decoding 9 0 0 false)) = some ⟨10, 0x80, false, false, 1⟩ := by
  decide
theorem test_d8_parity : field (·.dec) (exec (.edgeParity true) (decoding 10 0x12 2 false)) = some ⟨11, 0x12, false, false, 3⟩ := by
  decide
theorem test_d9_stop : field (fun t => (t.buf.mem, t.buf.tail, t.dec)) (exec (.edgeStop true) (decoding 11 0x1C 3 false))
    = some ([(0, 0x1C)], 1, ⟨1, 0, false, false, 0⟩) := by decide
theorem test_d11_stop : field (fun t => (t.evlog, t.buf.tail)) (exec (.edgeStop true) (decoding 11 0x1C 4 false))
    = some ([.framing false true false 0x1C], 0) := by decide
theorem test_d9_accept : field (·.buf.mem) (exec (.frameAccept 0x1C false) (decoding 11 0x1C 3 false)) = some [(0, 0x1C)] := by
  decide
theorem test_d12_reject : field (·.evlog) (exec (.frameReject 0x439) (decoding 11 0x1C 3 true))
    = some [.framing true true true 0x1C] := by decide
theorem test_edge_not_selected : refusalOf (exec (.edgeStart true) (decoding 2 0 0 false)) = some (.notSelected "EDGE_START") := by
  decide

/-! ### The buffer (vectors B1 to B9) -/

theorem test_b1_push : field (·.buf) (exec (.push 0xA1) (ring [] 0 0)) = some ⟨[(0, 0xA1)], 0, 1⟩ := by decide
theorem test_b4_push : field (fun t => (t.buf, t.evlog)) (exec (.push 0xD4) (ring [(0, 0xA1), (1, 0xB2), (2, 0xC3)] 0 3))
    = some (⟨[(0, 0xA1), (1, 0xB2), (2, 0xC3), (3, 0xD4)], 1, 0⟩, [.overflow 0xA1]) := by decide
theorem test_b7_pop : field (·.buf.head) (exec .pop (ring [(0, 0xE5), (1, 0xB2), (2, 0xC3), (3, 0xD4)] 3 1)) = some 0 := by decide
theorem test_b9_pop : field (·.buf) (exec .pop (ring [(0, 0xE5)] 1 1)) = some ⟨[(0, 0xE5)], 1, 1⟩ := by decide
theorem test_no_such_slot : refusalOf (exec (.push 0) (ring [] 0 4)) = some .noSuchSlot := by decide

/-! ### The interpreter (vectors I2 to I22) -/

theorem test_i2_empty : field (·.ip) (exec .interpEmpty (flags true false)) = some ⟨true, false⟩ := by decide
theorem test_i4_rel : field (·.ip) (exec .interpRel (flags false true)) = some ⟨true, true⟩ := by decide
theorem test_i6_ext : field (·.ip) (exec .interpExtA (flags false false)) = some ⟨false, true⟩ := by decide
theorem test_i8_ext : field (·.ip) (exec .interpExtB (flags true true)) = some ⟨true, true⟩ := by decide
theorem test_i10_resolve : sels (exec (.interpResolve 0x1C) (flags true false)) = some [0x81, 0xA6] := by decide
theorem test_i14_resolve : calls (exec (.interpResolve 0x75) (flags false true)) = some [(true, 0x3E), (true, 0x06)] := by decide
theorem test_i18_resolve : field (fun t => (t.ip, t.trace)) (exec (.interpResolve 0x11) (flags true true))
    = some (⟨false, false⟩, []) := by decide
theorem test_i21_unrecognized : field (fun t => (t.ip, t.evlog)) (exec (.interpUnrecognized 0x42) (flags true true))
    = some (⟨false, false⟩, [.unrecognized 0x42]) := by decide

/-! ### The joystick samplers (vectors J2 to J14, T1, T4) -/

theorem test_t1_same : field (·.trace) (exec (.joypollSame .l 0b000101) (stick 0b000101)) = some [] := by decide
theorem test_j11_none : calls (exec (.joypollNone .l false true) (stick 0)) = some
    [(false, 0x10), (true, 0x11), (false, 0x02), (false, 0x03), (false, 0x04), (false, 0x05), (false, 0x09), (false, 0x0A),
     (false, 0x0B), (false, 0x0D)] := by decide
theorem test_j13_invalid_ud : field (fun t => (t.evlog, t.trace.length, t.joyPrev.l))
    (exec (.joypollNoneInvalidUd .l false false false false) (stick 0))
    = some ([.joyInvalid .l 0b000011], 10, 0b000011) := by decide
theorem test_j14_invalid_lr : field (fun t => (t.evlog, t.trace.any (·.on), t.joyPrev.l))
    (exec (.joypollNoneInvalidLr .l false false false false) (stick 0))
    = some ([.joyInvalid .l 0b001100], false, 0b001100) := by decide
theorem test_j2_u : calls (exec (.joypollU .l false false) (stick 0)) = some
    [(false, 0x10), (false, 0x11), (false, 0x03), (false, 0x04), (false, 0x05), (false, 0x09), (false, 0x0A), (false, 0x0B),
     (false, 0x0D), (true, 0x02)] := by decide
theorem test_j3_d : calls (exec (.joypollD .l false false) (stick 0)) = some
    [(false, 0x10), (false, 0x11), (false, 0x02), (false, 0x04), (false, 0x05), (false, 0x09), (false, 0x0A), (false, 0x0B),
     (false, 0x0D), (true, 0x03)] := by decide
theorem test_j4_l : calls (exec (.joypollL .l false false) (stick 0)) = some
    [(false, 0x10), (false, 0x11), (false, 0x02), (false, 0x03), (false, 0x05), (false, 0x09), (false, 0x0A), (false, 0x0B),
     (false, 0x0D), (true, 0x04)] := by decide
theorem test_t4_r : calls (exec (.joypollR .l true false) (stick 0b001000)) = some
    [(true, 0x10), (false, 0x11), (false, 0x02), (false, 0x03), (false, 0x04), (false, 0x09), (false, 0x0A), (false, 0x0B),
     (false, 0x0D), (true, 0x05)] := by decide
theorem test_j6_ul : calls (exec (.joypollUl .l false false) (stick 0)) = some
    [(false, 0x10), (false, 0x11), (false, 0x03), (false, 0x05), (false, 0x0A), (false, 0x0B), (false, 0x0D),
     (true, 0x02), (true, 0x04), (true, 0x09)] := by decide
theorem test_t2_ur : calls (exec (.joypollUr .l false false) (stick 0b000101)) = some
    [(false, 0x10), (false, 0x11), (false, 0x03), (false, 0x04), (false, 0x09), (false, 0x0B), (false, 0x0D),
     (true, 0x02), (true, 0x05), (true, 0x0A)] := by decide
theorem test_j8_dr : calls (exec (.joypollDr .l false false) (stick 0)) = some
    [(false, 0x10), (false, 0x11), (false, 0x02), (false, 0x04), (false, 0x09), (false, 0x0A), (false, 0x0D),
     (true, 0x03), (true, 0x05), (true, 0x0B)] := by decide
theorem test_j9_dl : calls (exec (.joypollDl .l false false) (stick 0)) = some
    [(false, 0x10), (false, 0x11), (false, 0x02), (false, 0x05), (false, 0x09), (false, 0x0A), (false, 0x0B),
     (true, 0x03), (true, 0x04), (true, 0x0D)] := by decide
/-- The example for joystick R at the end of spec/95 section 3.5. -/
theorem test_joystick_r : calls (exec (.joypollR .r false false) (stick 0)) = some
    [(false, 0x20), (false, 0x21), (false, 0x32), (false, 0x33), (false, 0x34), (false, 0x39), (false, 0x3A), (false, 0x3B),
     (false, 0x3D), (true, 0x35)] := by decide

/-! ### The driver (vectors W2, W7, W13, S10) -/

theorem test_w2_on : field (fun t => (t.closed 0x2C#6, t.closed 0x26#6, t.trace, t.out)) (exec (.setswitchOn 0x2C) quick)
    = some (true, false, [⟨true, 0x2C, 0xE6⟩], ⟨0, 0, false, false⟩) := by decide
theorem test_w7_off : field (fun t => (t.closed 0x06#6, t.trace)) (exec (.setswitchOff 0x06) { quick with xp := .replicate 64 true })
    = some (false, [⟨false, 0x06, 0x88⟩]) := by decide
theorem test_w13_sentinel : faultOf (exec (.setswitchSentinel true 0) quick) = some .sentinelAtDriver := by decide
/-- The order and the select words of MATRIX_RESET (spec/95 section 3.3). -/
theorem test_s10_calls : [matrixCalls[0]?, matrixCalls[1]?, matrixCalls[4]?, matrixCalls[24]?, matrixCalls[48]?, matrixCalls[63]?].map
    (fun c => c.map traceEntry) = [some ⟨false, 0x00, 0x80⟩, some ⟨false, 0x10, 0x90⟩, some ⟨false, 0x01, 0x81⟩,
      some ⟨false, 0x06, 0x88⟩, some ⟨false, 0x0C, 0x86⟩, some ⟨false, 0x3F, 0xBF⟩] := by decide

/-! ### The dispatcher and the step (vectors P-a to P-c) -/

theorem test_pa_joyL : field (fun t => (t.slot, t.joyPrev.l, t.trace.length)) (exec .dispatchJoyL { quick with joyRaw := ⟨0x3E, 0x3F⟩ })
    = some (1, 0b000001, 10) := by decide
theorem test_pb_joyR : field (fun t => (t.slot, t.trace.length)) (exec .dispatchJoyR { quick with slot := 1 }) = some (2, 0) := by
  decide
theorem test_pc_interp : field (fun t => (t.slot, t.ip, t.buf.head)) (exec .dispatchInterp
    { quick with slot := 2, buf := ⟨[(0, 0xF0)], 0, 1⟩ }) = some (0, ⟨true, false⟩, 1) := by decide
/-- The bits of FRAME 0x1C in arrival order (spec/95 section 3.1), and of the statements R80 expands to others. -/
theorem test_stimulus : stimulusItems excfg (.frame 0x1C) =
      [.edge false, .edge false, .edge false, .edge true, .edge true, .edge true, .edge false, .edge false, .edge false,
       .edge false, .edge true] ∧
    scriptItems excfg [.xkeyup 0x75, .round] =
      frameEdges 0x5C0 ++ frameEdges 0x7E0 ++ frameEdges 0x4EA ++ [.poll, .poll, .poll] := by decide
theorem test_step_edge : field (fun t => (t.dec.pos, t.sched)) (step { quick with sched := [.edge false, .poll] })
    = some (2, [.poll]) := by decide
theorem test_step_placed : field (fun t => (t.dec.par, t.dec.pos)) (step (quick.withFetchWord 4 0xA)) = some (0, 11) := by decide

/-! ### Boot (spec/95 section 3.7) -/

set_option maxRecDepth 4000 in
theorem test_reset_keeps_lines : field (fun t => (t.joyRaw.l, t.irqEn, t.slot, t.buf))
    (exec .reset { quick with joyRaw := ⟨0x3E, 0x3F⟩, irqEn := false, slot := 2, buf := ⟨[(0, 1)], 0, 1⟩ })
    = some (0x3E, true, 0, ⟨[], 0, 0⟩) := by decide

set_option maxRecDepth 8000 in
theorem test_reset_opens : field (fun t => (t.closed 0x2C#6, t.trace.length, t.out))
    (exec .reset { quick with xp := .replicate 64 true }) = some (false, 64, ⟨0, 0, false, false⟩) := by decide

/-! ### Witnesses: for each statement with hypotheses, a state and operands that meet all of them -/

theorem test_witness_running : quick.Running ∧ State.reset.Inv := by decide

/-- EncodeThenDecodeIsIdentity and DecodeThenEncodeIsIdentity. -/
theorem test_witness_encoding : cfgWellFormed excfg = true ∧ WellFormed excfg (.frameAccept 0xFF true) = true ∧
    decode excfg 0x07010029#32 = .ok (.joypollUr .r false true) ∧
    (0x07010029#32).extractLsb' 24 8 ≠ BitVec.ofNat 8 tagBare := by decide

/-- ValidFramesAreOnePerByte. -/
theorem test_witness_valid_frame : frameValid 0x438 = true ∧ frameValid 0x7FE = true ∧ frameValid 0x7FF = false := by decide

/-- EdgeStartStoresTheStartBit, EdgeDataWritesOneBit (its first and its last position), EdgeParityCountsTheSample. -/
theorem test_witness_edges : (decoding 1 0 0 false).dec.pos = 1#4 ∧
    (decoding 2 0 0 false).dec.pos.toNat = (0 : Fin 8).val + 2 ∧ (decoding 9 0 0 false).dec.pos.toNat = (7 : Fin 8).val + 2 ∧
    (decoding 10 0 0 false).dec.pos = 10#4 := by decide

/-- EdgeStopEndsTheFrame: a frame it accepts and one it does not. -/
theorem test_witness_edgeStop : (decoding 11 0x1C 3 false).dec.pos = 11#4 ∧ 0 < (decoding 11 0x1C 3 false).slots ∧
    ((decoding 11 0x1C 3 false).dec.par.toNat % 2 = 1 ∧ (decoding 11 0x1C 3 false).dec.start = false ∧ true = true) ∧
    ¬((decoding 11 0x1C 4 false).dec.par.toNat % 2 = 1 ∧ (decoding 11 0x1C 4 false).dec.start = false ∧ true = true) := by decide

/-- FrameRowsAreTheOutcomesOfEdgeStop: a valid and an invalid word. -/
theorem test_witness_frameRows : (decoding 11 0x1C 3 false).dec.holds 0x438 = true ∧ frameValid 0x438 = true ∧
    (decoding 11 0x1C 3 true).dec.holds 0x439 = true ∧ frameValid 0x439 = false ∧
    (decoding 11 0x1C 3 true).buf.tail < (decoding 11 0x1C 3 true).slots := by decide

/-- SerialOperationsUseOnlyTheirOwnState. -/
theorem test_witness_serial : isSerial (.push 1) = true ∧ isSerial (.edgeParity true) = true ∧
    isEarlyEdge (.edgeParity true) = true ∧ ∃ t, exec (.push 1) quick = .next t := ⟨rfl, rfl, rfl, _, rfl⟩

/-- FrameIsCheckedOnlyAtItsEnd, at the first and the last position it speaks of. -/
theorem test_witness_checked : ∀ p ∈ [1#4, 10#4], State.Running { decoding p 0 0 false with sched := [.edge true] } ∧
    (decoding p 0 0 false).irqEn = true ∧ 1 ≤ (decoding p 0 0 false).dec.pos.toNat ∧
    (decoding p 0 0 false).dec.pos.toNat ≤ 10 := by decide

/-- ElevenEdgesDecodeAFrame, with a valid and an invalid word. -/
theorem test_witness_elevenEdges : ∀ w ∈ [0x438#11, 0x439#11],
    State.Running { quick with sched := frameEdges w ++ [.poll] } ∧ quick.irqEn = true ∧ quick.buf.tail < quick.slots ∧
    quick.dec.pos = 1#4 ∧ quick.dec.data = 0x00#8 ∧ quick.dec.par = 0#4 ∧ frameValid w = (w == 0x438#11) := by decide

/-- ShiftedDecoderRejectsEveryFrame: one position ahead, and one behind. -/
theorem test_witness_shifted :
    (State.Running { decoding 2 0 0 true with sched := frameEdges 0x438 } ∧ (decoding 2 0 0 true).dec.pos = 2#4 ∧
      (decoding 2 0 0 true).dec.start = true ∧ (decoding 2 0 0 true).dec.data = 0x00#8 ∧ (decoding 2 0 0 true).dec.par = 0#4 ∧
      frameStop 0x438 = true) ∧
    (State.Running { decoding 11 5 2 true with sched := frameEdges 0x438 } ∧ (decoding 11 5 2 true).dec.pos = 11#4 ∧
      frameStart 0x438 = false) := by decide

/-- PushWritesTheTailSlot (with and without overflow) and PushIsDropOldestOnTheContents (full, not full). -/
theorem test_witness_push :
    (bufferOk (ring [(0, 0xA1), (1, 0xB2), (2, 0xC3)] 0 3) = true ∧
      (ring [(0, 0xA1), (1, 0xB2), (2, 0xC3)] 0 3).buf.tail < (ring [(0, 0xA1), (1, 0xB2), (2, 0xC3)] 0 3).slots ∧
      (ring [(0, 0xA1), (1, 0xB2), (2, 0xC3)] 0 3).contents.length = 3 ∧
      field (fun t => (t.buf.tail, t.buf.head)) (exec (.push 7) (ring [(0, 0xA1), (1, 0xB2), (2, 0xC3)] 0 3)) = some (0, 1)) ∧
    (bufferOk (ring [] 3 3) = true ∧ 1 ≤ (ring [] 3 3).cfg.cap ∧
      field (fun t => (t.buf.tail, t.buf.head)) (exec (.push 7) (ring [] 3 3)) = some (0, 3)) := by decide

/-- PopReadsTheHeadSlot and PopTakesTheOldestByte: an empty ring, and a head at the last slot. -/
theorem test_witness_pop :
    (ring [] 2 2).buf.head = (ring [] 2 2).buf.tail ∧ bufferOk (ring [] 2 2) = true ∧
    (ring [(3, 9)] 3 0).buf.head ≠ (ring [(3, 9)] 3 0).buf.tail ∧ (ring [(3, 9)] 3 0).buf.head < (ring [(3, 9)] 3 0).slots ∧
    bufferOk (ring [(3, 9)] 3 0) = true := by decide

/-- OneByteTooManyEvictsTheFirst. -/
theorem test_witness_oneTooMany : bufferOk (ring [] 1 1) = true ∧ (ring [] 1 1).buf.head = (ring [] 1 1).buf.tail ∧
    1 ≤ (ring [] 1 1).cfg.cap ∧ [0x01#8, 0x02#8, 0x03#8, 0x04#8].length = (ring [] 1 1).cfg.cap + 1 := by decide

/-- PolledOperationsLeaveTheSerialSide. -/
theorem test_witness_polled : isPolled .pop = true ∧ ∃ t, exec .pop (ring [(3, 9)] 3 0) = .next t := ⟨rfl, _, rfl⟩

/-- PrefixesSetOnlyTheirFlag (the empty buffer), ResolveDrivesTheVariantAndClears, UnrecognizedByteClearsBothFlags. -/
theorem test_witness_interp : quick.buf.head = quick.buf.tail ∧
    scan quick.cfg 0x75 = .resolve [0x17] [0x3E, 0x06] ∧ scan quick.cfg 0x11 = .resolve [] [] ∧ scan quick.cfg 0x42 = .ignore := by
  decide

/-- OnlyRealAddressesReachTheDriver (an entry with a sentinel) and OnlyResolvedOrUnrecognizedClears (a flag cleared). -/
theorem test_witness_resolve : (nextOf (exec (.interpResolve 0x29) (flags true false))).isSome = true ∧
    (flags true false).ip.rel = true ∧ field (·.ip.rel) (exec (.interpResolve 0x29) (flags true false)) = some false ∧
    mayWriteFlags .pop = false ∧ (nextOf (exec .pop (flags true false))).isSome = true := by decide

/-- OnlyResolvedOrUnrecognizedClears at the interpreter slot: a byte that is not recognized clears a flag, a prefix does not. -/
theorem test_witness_slotClears :
    field (·.ip) (exec .dispatchInterp { flags true false with slot := 2, buf := ⟨[(0, 0x42)], 0, 1⟩ }) = some ⟨false, false⟩ ∧
    field (·.ip) (exec .dispatchInterp { flags true false with slot := 2, buf := ⟨[(0, 0xE0)], 0, 1⟩ }) = some ⟨true, true⟩ := by
  decide

/-- PrefixOrderDoesNotMatter. -/
theorem test_witness_prefixes : ∀ i ∈ [Instr.interpExtB, .interpRel, .interpExtA],
    i = .interpRel ∨ i = .interpExtA ∨ i = .interpExtB := by decide

/-- SameSnapshotDoesNothing. -/
theorem test_witness_same : (0b000101 : Snapshot) = (stick 0b000101).joyPrev.get .l := by decide

/-- CardinalRowsOpenSevenAndCloseOne, DiagonalRowsOpenFiveAndCloseThree, NoneRowsOpenAllEight and the two statements of what
the rows leave: a table without a sentinel, and a previous snapshot no row has. -/
theorem test_witness_rows : joyTableOk quick.cfg .l = true ∧ joyTableOk quick.cfg .r = true ∧
    (∀ snap ∈ [mkSnap false false false false false true, mkSnap false false false false true false,
        mkSnap false false false true false false, mkSnap false false true false false false,
        mkSnap false false false true false true, mkSnap false false true false false true,
        mkSnap false false true false true false, mkSnap false false false true true false,
        mkSnap false true false false false false, mkSnap true false true false true true,
        mkSnap true true true true false true], snap ≠ quick.joyPrev.get .l ∧ snap ≠ quick.joyPrev.get .r) ∧
    mkSnap false false false false false false ≠ (stick 1).joyPrev.get .l := by decide

/-- EveryChangeOpensBeforeItCloses and SamplersAreIndependent. -/
theorem test_witness_change : rowSnapshot (.joypollUl .l true false) = some (.l, 0b010101) ∧
    (nextOf (exec (.joypollUl .l true false) quick)).isSome = true ∧ joyOf (.joypollUl .l true false) = some .l ∧
    JoyId.l ≠ .r := by decide

/-- NoOpposedDirectionsBothClosed, between the calls that change from U to D. -/
theorem test_witness_opposed :
    (∀ n ∈ [JoyName.u, .d, .l, .r], ∀ m ∈ [JoyName.u, .d, .l, .r, .xul, .xur, .xdr, .xdl, .b1, .b2], m ≠ n →
      joyCell quick.cfg .l m ≠ joyCell quick.cfg .l n) ∧
    ¬(quick.closed (joyCell quick.cfg .l .u) = true ∧ quick.closed (joyCell quick.cfg .l .d) = true) ∧
    ¬(quick.closed (joyCell quick.cfg .l .l) = true ∧ quick.closed (joyCell quick.cfg .l .r) = true) ∧
    (nextOf (runCalls ((joyCalls quick.cfg .l 0b000010).take 7) quick)).isSome = true := by decide

/-- JoystickSlotRunsTheSelectedRow and InterpreterSlotRunsTheSelectedRow (an empty buffer, and a byte). -/
theorem test_witness_slots : quick.component = .joyL ∧ State.component { quick with slot := 1 } = .joyR ∧
    joyTableOk quick.cfg .l = true ∧ joyTableOk quick.cfg .r = true ∧ State.component { quick with slot := 2 } = .interp ∧
    quick.buf.head = quick.buf.tail ∧ (ring [(3, 9)] 3 0).buf.head < (ring [(3, 9)] 3 0).slots := by decide

/-- DispatchMakesBoundedCalls. -/
theorem test_witness_dispatch : cfgWellFormed quick.cfg = true ∧
    field (·.trace.length) (exec .dispatchJoyL { quick with joyRaw := ⟨0x3A, 0x3F⟩ }) = some 10 ∧
    field (·.trace.length) (exec .dispatchInterp { quick with slot := 2, buf := ⟨[(0, 0x1C)], 0, 1⟩ }) = some 2 := by decide

/-- QuiescentStateOnlyMovesTheSlot. -/
theorem test_witness_quiescent : quick.Running ∧ quick.Quiescent ∧
    State.Running { quick with sched := [.poll, .joy .l 0] } ∧ State.Quiescent { quick with sched := [.poll, .joy .l 0] } := by
  decide

/-- Not quiescent: an edge still to come, a frame in flight, an unread byte, a joystick changed, a mark set (R154, R158). -/
theorem test_not_quiescent : ¬State.Quiescent { quick with sched := [.poll, .edge true] } ∧ ¬(decoding 2 0 0 false).Quiescent ∧
    ¬(ring [(3, 9)] 3 0).Quiescent ∧ ¬State.Quiescent { quick with joyRaw := ⟨0x3E, 0x3F⟩ } ∧
    ¬State.Quiescent { quick with fault := some .sentinelAtDriver } ∧ ¬State.Quiescent { quick with refused := true } := by decide

/-- ResetLeavesTheBootState and IllFormedConfigurationHasNoRun. -/
theorem test_witness_boot : cfgWellFormed quick.cfg = true ∧
    failedCheck (State.afterBoot { excfg with cap := 0 }).cfg = some .cap ∧
    (State.afterBoot { excfg with cap := 0 }).fault = none ∧ (State.afterBoot { excfg with cap := 0 }).refused = false := by decide

/-- StepRunsTheEdgeThePositionSelects: every position the clauses name. -/
theorem test_witness_stepEdge : ∀ p ∈ [1#4, 2#4, 9#4, 10#4, 11#4],
    State.Running { decoding p 0 0 false with sched := [.edge true] } ∧ (decoding p 0 0 false).irqEn = true ∧
    (decoding p 0 0 false).dec.pos = p := by decide

/-- StepRunsTheSlotsComponent, StepRunsTheDecodedOperation and StepTakesTheEnvironmentsEvents. -/
theorem test_witness_step : State.Running { quick with sched := [.poll] } ∧ quick.sched = [] ∧
    State.Running { quick with sched := [.word 0x0801002C#32] } ∧ decode quick.cfg 0x0801002C#32 = .ok (.setswitchOn 0x2C) ∧
    State.Running { quick with sched := [.joy .l 0], irqEn := false } ∧
    State.Running { quick with sched := [.lostEdge true], cfg := { excfg with edgeLoss := true } } ∧
    State.Running { quick with sched := [.lostEdge true] } ∧ quick.cfg.edgeLoss = false ∧
    State.Running { quick with sched := [.reset] } := by decide

/-- PlacedRowRunsNext. -/
theorem test_witness_placed : quick.Running ∧ decodeTableWord 4 0xB = some (.edgeStop false) := by decide

/-- StoppedStateStaysStopped: a step that faults, a faulted state and a refused state. -/
theorem test_witness_stopped : quick.fault = none ∧ quick.refused = false ∧
    faultOf (step { quick with sched := [.word 0x08010080#32] }) = some .sentinelAtDriver ∧
    State.fault { quick with fault := some .sentinelAtDriver } = some .sentinelAtDriver ∧
    State.refused { quick with refused := true } = true := by decide

/-- EveryStepKeepsTheInvariant, NoInputHaltsTheCore, ConfigurationIsNeverWritten. -/
theorem test_witness_invariant : State.Inv { quick with sched := [.edge false, .joy .r 0, .poll] } ∧
    [Item.edge false, .joy .r 0, .poll].all Item.isOwn = true ∧
    (nextOf (step { quick with sched := [.edge false, .joy .r 0, .poll] })).isSome = true := by decide

/-- EveryStepKeepsTheTraceTrue: an open array with an empty trace. -/
theorem test_witness_trace : quick.xp = replay quick.trace ∧
    (nextOf (step { quick with sched := [.word 0x0801002C#32] })).isSome = true := by decide

/-- EdgeCommutesWithAJoystickSlot and OnlyAStopSampleRacesWithAPop (a sample before the last, and a last sample that is
rejected). -/
theorem test_witness_orders : State.Inv quick ∧ quick.component ≠ .interp ∧ State.Inv { quick with slot := 2 } ∧
    State.component { quick with slot := 2 } = .interp ∧ quick.dec.pos ≠ 11#4 ∧
    State.Inv { decoding 11 0x1C 3 true with slot := 2 } ∧ State.component { decoding 11 0x1C 3 true with slot := 2 } = .interp ∧
    ¬((decoding 11 0x1C 3 true).dec.pos = 11#4 ∧ (decoding 11 0x1C 3 true).dec.par.toNat % 2 = 1 ∧
      (decoding 11 0x1C 3 true).dec.start = false ∧ true = true) := by decide

end Sys2Proof.Tests
end

/-! ### The direction nibble (spec/30, R70): its case table and its invalid values -/

namespace Sys2Proof

/-- Settles O7: a nibble has sixteen values, so each half of R70's table, the cases and the invalid values, is a closed
fact that the model evaluates. -/
theorem directionNibblesMatchTheTable : Obligations.DirectionNibblesMatchTheTable := by
  unfold Obligations.DirectionNibblesMatchTheTable
  constructor
  case left => decide -- the case of each nibble
  case right => decide -- the invalid nibbles

end Sys2Proof

/-! ### The X remap (spec/40, R81): its table -/

namespace Sys2Proof

/-- Settles O5: the remap is total on sixteen values, so R81's table is a closed fact that the model evaluates. -/
theorem remapIsTheGivenTable : Obligations.RemapIsTheGivenTable := by
  unfold Obligations.RemapIsTheGivenTable
  decide

end Sys2Proof

/-! ### The scan-code buffer (spec/41, R95 to R98): what PUSH and POP do to the slots and the indices -/

namespace Sys2Proof

open Machine

theorem exec_push (b : Byte) (s : State) : exec (.push b) s = bufPush b s := rfl

theorem exec_pop (s : State) : exec .pop s = andThen (bufPop s) fun p => .next p.2 := rfl

/-- The slots' bytes depend on the buffer memory and the power-up counter alone. -/
theorem slotByte_congr {s t : State} (hmem : t.buf.mem = s.buf.mem) (hups : t.powerUps = s.powerUps) (a : Nat) :
    t.slotByte a = s.slotByte a := by
  simp only [State.slotByte, hmem, hups]

/-- One write to the buffer memory gives one slot its byte and leaves every other slot's. -/
theorem slotByte_of_mem_write {s t : State} {i : Nat} {b : Byte} (hmem : t.buf.mem = Memory.write s.buf.mem i b)
    (hups : t.powerUps = s.powerUps) (a : Nat) : t.slotByte a = if a = i then b else s.slotByte a := by
  by_cases ha : a = i
  · subst ha
    simp [State.slotByte, hmem]
  · simp [State.slotByte, hmem, hups, ha, Memory.read_write_other]

/-- PUSH where the advanced tail does not meet the head: the byte goes to the tail's slot and the head stays (R95). -/
theorem bufPush_of_tail_ne_head {b : Byte} {s : State} (h : s.buf.tail < s.slots)
    (hne : (s.buf.tail + 1) % s.slots ≠ s.buf.head) :
    bufPush b s =
      .next { s with buf := ⟨Memory.write s.buf.mem s.buf.tail b, s.buf.head, (s.buf.tail + 1) % s.slots⟩ } := by
  rw [bufPush_eq b s h, if_neg hne]

/-- PUSH where the advanced tail meets the head: the head advances too, and the event carries the byte of the old head's slot,
read after the write (R95, R157). -/
theorem bufPush_of_tail_eq_head {b : Byte} {s : State} (h : s.buf.tail < s.slots)
    (heq : (s.buf.tail + 1) % s.slots = s.buf.head) :
    bufPush b s =
      .next { s with
        buf := ⟨Memory.write s.buf.mem s.buf.tail b, (s.buf.head + 1) % s.slots, (s.buf.tail + 1) % s.slots⟩
        evlog := s.evlog ++ [.overflow (if s.buf.head = s.buf.tail then b else s.slotByte s.buf.head)] } := by
  have hread : State.slotByte { s with buf := { s.buf with mem := Memory.write s.buf.mem s.buf.tail b } } s.buf.head =
      if s.buf.head = s.buf.tail then b else s.slotByte s.buf.head := slotByte_of_mem_write (by rfl) (by rfl) _
  rw [bufPush_eq b s h, if_pos heq, hread]

/-- What PUSH does to the memory and the tail does not depend on whether the buffer is full (R95). -/
theorem bufPush_mem_tail {b : Byte} {s t : State} (h : bufPush b s = .next t) :
    t.buf.mem = Memory.write s.buf.mem s.buf.tail b ∧ t.buf.tail = (s.buf.tail + 1) % s.slots := by
  rw [bufPush_eq b s (bufPush_next h)] at h
  split at h <;> (cases h; exact ⟨rfl, rfl⟩)

/-- After PUSH the tail's old slot holds the byte and every other slot the byte it held (R95). -/
theorem bufPush_slotByte {b : Byte} {s t : State} (h : bufPush b s = .next t) (a : Nat) :
    t.slotByte a = if a = s.buf.tail then b else s.slotByte a :=
  slotByte_of_mem_write (bufPush_mem_tail h).1 (by rw [bufPush_frame h]) a

/-- Settles O17: the slots, the tail and the frame are the same for every PUSH; the head and the log follow from its next state
where the advanced tail meets the head and where it does not. -/
theorem pushWritesTheTailSlot : Obligations.PushWritesTheTailSlot := by
  unfold Obligations.PushWritesTheTailSlot
  intro b s hlt
  obtain ⟨t, hpush⟩ : ∃ t, bufPush b s = .next t := ⟨_, bufPush_eq b s hlt⟩
  have hslot := bufPush_slotByte hpush
  have htail := (bufPush_mem_tail hpush).2
  refine ⟨t, (exec_push b s).trans hpush, by simp [hslot], fun a ha => by simp [hslot, ha], htail, ?meets, ?room,
    bufPush_frame hpush⟩
  case meets =>
    intro hmeet
    rw [bufPush_of_tail_eq_head hlt (htail ▸ hmeet)] at hpush
    cases hpush
    exact ⟨rfl, rfl⟩
  case room =>
    intro hroom
    rw [bufPush_of_tail_ne_head hlt (htail ▸ hroom)] at hpush
    cases hpush
    exact ⟨rfl, rfl⟩

/-- Settles O18: the two ways POP answers, by whether the head meets the tail; neither writes the buffer memory. -/
theorem popReadsTheHeadSlot : Obligations.PopReadsTheHeadSlot := by
  unfold Obligations.PopReadsTheHeadSlot
  intro s
  constructor
  case left =>
    intro hempty
    have hpop := bufPop_empty hempty
    exact ⟨hpop, by rw [exec_pop, hpop, andThen_next]⟩
  case right =>
    intro hne hlt
    have hpop := bufPop_some hne hlt
    exact ⟨_, hpop, by rw [exec_pop, hpop, andThen_next], slotByte_congr rfl rfl, rfl⟩

end Sys2Proof

/-! ### The serial bit decoder (spec/42, R103 to R115): the start bit, and the state the ISR agent's operations use -/

namespace Sys2Proof

open Machine

/-- Settles O8: at position 1 the selector of EDGE_START holds, so the operation runs. -/
theorem edgeStartStoresTheStartBit : Obligations.EdgeStartStoresTheStartBit := by
  unfold Obligations.EdgeStartStoresTheStartBit
  intro v s hpos
  have hsel : (s.dec.pos == 1#4) = true := beq_iff_eq.2 hpos
  change whenSelected (s.dec.pos == 1#4) _ _ = _
  rw [hsel, whenSelected_true]

/-- R115 for an action: it reads only the decoder, the buffer, its capacity and its unwritten bytes, and it writes only the
decoder, the buffer and the event log. -/
structure UsesOnlySerialState (o : State → Res State) : Prop where
  reads (s p : State) : o (s.withOthers p) = mapNext (fun t => t.withOthers p) (o s)
  writes {s t : State} : o s = .next t → t = { s with dec := t.dec, buf := t.buf, evlog := t.evlog }

namespace UsesOnlySerialState

/-- An action that always answers a next state. -/
theorem ofNext {f : State → State} (hreads : ∀ s p : State, f (s.withOthers p) = (f s).withOthers p)
    (hwrites : ∀ s, f s = { s with dec := (f s).dec, buf := (f s).buf, evlog := (f s).evlog }) :
    UsesOnlySerialState fun s => .next (f s) where
  reads s p := congrArg Host.Outcome.next (hreads s p)
  writes := by
    intro s t h
    cases h
    exact hwrites s

theorem ofRefused (r : Refusal) : UsesOnlySerialState fun _ => .refused r where
  reads _ _ := rfl
  writes := nofun

/-- An action may depend on the decoder. -/
theorem ofDecoder {o : Decoder → State → Res State} (h : ∀ d, UsesOnlySerialState (o d)) :
    UsesOnlySerialState fun s => o s.dec s where
  reads s p := (h s.dec).reads s p
  writes {s _} hnext := (h s.dec).writes hnext

/-- A selector may read the decoder. -/
theorem selected {o : State → Res State} (h : UsesOnlySerialState o) (sel : Decoder → Bool) (m : String) :
    UsesOnlySerialState fun s => whenSelected (sel s.dec) m (o s) := by
  refine ofDecoder (o := fun d s => whenSelected (sel d) m (o s)) fun d => ?_
  cases sel d with
  | false => exact ofRefused _
  | true => exact h

/-- Two actions in sequence. -/
theorem seq {o k : State → Res State} (ho : UsesOnlySerialState o) (hk : UsesOnlySerialState k) :
    UsesOnlySerialState fun s => andThen (o s) k where
  reads s p := by
    rw [ho.reads]
    cases o s with
    | next u => exact hk.reads u p
    | fault r => rfl
    | refused r => rfl
  writes := by
    intro s t h
    obtain ⟨u, hu, ht⟩ := andThen_eq_next.1 h
    rw [hk.writes ht, ho.writes hu]

end UsesOnlySerialState

theorem usesOnlySerialState_bufPush (b : Byte) : UsesOnlySerialState (bufPush b) where
  reads s p := bufPush_withOthers b s p
  writes := by
    intro s t h
    rw [bufPush_frame h]

theorem usesOnlySerialState_frameReset : UsesOnlySerialState fun s => .next (frameReset s) :=
  .ofNext (fun _ _ => rfl) fun _ => rfl

/-- Logging adds the event after the events of any log. -/
theorem usesOnlySerialState_emit (e : Event) : UsesOnlySerialState fun s => .next (s.emit e) :=
  .ofNext (fun s p => by simp [State.emit, State.withOthers]) fun _ => rfl

/-- The end of a frame: the stop bit is stored, then the decoder decides between pushing the data byte and logging the reject,
and the frame is reset (R107 to R109). -/
theorem usesOnlySerialState_endFrame (v : Bit) : UsesOnlySerialState (endFrame v) := by
  have hstop : UsesOnlySerialState fun s => .next { s with dec := { s.dec with stop := v } } :=
    .ofNext (fun _ _ => rfl) fun _ => rfl
  have hdecide (d : Decoder) : UsesOnlySerialState fun s =>
      if d.accepts then andThen (bufPush d.data s) fun u => .next (frameReset u)
      else .next (frameReset (s.emit d.framingEvent)) := by
    cases d.accepts with
    | true => exact (usesOnlySerialState_bufPush _).seq usesOnlySerialState_frameReset
    | false => exact (usesOnlySerialState_emit _).seq usesOnlySerialState_frameReset
  exact hstop.seq (.ofDecoder hdecide)

/-- An operation whose selector reads only the decoder and which changes only the decoder, as a function of the decoder. -/
def ActsOnDecoder (i : Instr) : Prop :=
  ∃ (sel : Decoder → Bool) (m : String) (f : Decoder → Decoder),
    ∀ s, exec i s = whenSelected (sel s.dec) m (.next { s with dec := f s.dec })

/-- The operations of positions 1 to 10 (R104 to R106). -/
theorem actsOnDecoder_of_isEarlyEdge : ∀ {i : Instr}, isEarlyEdge i = true → ActsOnDecoder i
  | .edgeStart v, _ => ⟨fun d => d.pos == 1#4, _, fun d => { d with start := v, pos := 2#4 }, fun _ => rfl⟩
  | .edgeData k v, _ => ⟨fun d => d.pos.toNat == k.val + 2, _,
      fun d => { d with data := setBit d.data k.val v, par := countSample d.par v, pos := d.pos + 1#4 }, fun _ => rfl⟩
  | .edgeParity v, _ => ⟨fun d => d.pos == 10#4, _, fun d => { d with par := countSample d.par v, pos := 11#4 },
      fun _ => rfl⟩

theorem ActsOnDecoder.usesOnlySerialState {i : Instr} (h : ActsOnDecoder i) : UsesOnlySerialState (exec i) := by
  obtain ⟨sel, m, f, hexec⟩ := h
  rw [funext hexec]
  exact UsesOnlySerialState.selected (.ofNext (fun _ _ => rfl) fun _ => rfl) sel m

/-- Such an operation has the same effect on the decoder in any other state with that decoder. -/
theorem ActsOnDecoder.exec_dec {i : Instr} (h : ActsOnDecoder i) (s p : State) :
    exec i { p with dec := s.dec } = mapNext (fun t => { p with dec := t.dec }) (exec i s) := by
  obtain ⟨sel, m, f, hexec⟩ := h
  rw [hexec, hexec]
  cases sel s.dec <;> rfl

/-- Every operation of the ISR agent (R115). -/
theorem usesOnlySerialState_exec : ∀ {i : Instr}, isSerial i = true → UsesOnlySerialState (exec i)
  | .edgeStart _, _ | .edgeData _ _, _ | .edgeParity _, _ =>
    (actsOnDecoder_of_isEarlyEdge rfl).usesOnlySerialState
  | .edgeStop v, _ => (usesOnlySerialState_endFrame v).selected (fun d => d.pos == 11#4) _
  | .frameAccept d p, _ =>
    ((usesOnlySerialState_bufPush d).seq usesOnlySerialState_frameReset).selected
      (fun dec => frameValid (mkFrame d p) && dec.holds (mkFrame d p)) _
  | .frameReject w, _ =>
    ((usesOnlySerialState_emit _).seq usesOnlySerialState_frameReset).selected
      (fun dec => !frameValid w && dec.holds w) _
  | .push b, _ => usesOnlySerialState_bufPush b

/-- Settles O13: every serial operation is built, by sequence and by choice on the decoder, from actions that use only the
serial state; those before the last sample are functions of the decoder. -/
theorem serialOperationsUseOnlyTheirOwnState : Obligations.SerialOperationsUseOnlyTheirOwnState := by
  unfold Obligations.SerialOperationsUseOnlyTheirOwnState
  intro i s p hserial
  have huses := usesOnlySerialState_exec hserial
  exact ⟨huses.reads s p, fun hearly => (actsOnDecoder_of_isEarlyEdge hearly).exec_dec s p, fun _ => huses.writes⟩

end Sys2Proof

/-! ### The scan-code interpreter (spec/43, R116 to R125): the prefixes, the resolved byte and the unrecognized byte -/

namespace Sys2Proof

open Machine

theorem exec_interpEmpty (s : State) :
    exec .interpEmpty s = whenSelected (s.buf.head == s.buf.tail) "INTERP_EMPTY" (.next s) := rfl

theorem exec_interpRel (s : State) : exec .interpRel s = .next { s with ip := ⟨true, s.ip.ext⟩ } := rfl

theorem exec_interpExtA (s : State) : exec .interpExtA s = .next { s with ip := ⟨s.ip.rel, true⟩ } := rfl

theorem exec_interpExtB (s : State) : exec .interpExtB s = .next { s with ip := ⟨s.ip.rel, true⟩ } := rfl

theorem exec_interpResolve (b : Byte) (s : State) : exec (.interpResolve b) s =
    whenSelected (isResolve (scan s.cfg b)) "INTERP_RESOLVE" (interpResolveOp (scan s.cfg b) s) := rfl

theorem exec_interpUnrecognized (b : Byte) (s : State) : exec (.interpUnrecognized b) s =
    whenSelected (scan s.cfg b == .ignore) "INTERP_UNRECOGNIZED"
      (.next { s with ip := ⟨false, false⟩, evlog := s.evlog ++ [.unrecognized b] }) := rfl

/-- What INTERP_RESOLVE leaves where it answers a next state: its calls made and both flags cleared (R121 to R123). -/
theorem exec_interpResolve_next {b : Byte} {s t : State} (h : exec (.interpResolve b) s = .next t) :
    t = { afterCalls s (resolveCalls s.ip.rel s.ip.ext (scan s.cfg b)) with ip := ⟨false, false⟩ } := by
  rw [exec_interpResolve] at h
  obtain ⟨-, hrun⟩ := whenSelected_eq_next.1 h
  rw [interpResolveOp_eq] at hrun
  cases hrun
  rfl

/-- Every call INTERP_RESOLVE makes has the level `!rel` (R122). -/
theorem resolveCalls_level {rel ext : Bit} {e : ScanEntry} {c : DriverCall} (h : c ∈ resolveCalls rel ext e) :
    c.1 = !rel := by
  obtain ⟨a, -, rfl⟩ := List.mem_map.1 h
  rfl

/-- Settles O27: a prefix sets its flag in every state, and an empty buffer is the selector of INTERP_EMPTY. -/
theorem prefixesSetOnlyTheirFlag : Obligations.PrefixesSetOnlyTheirFlag := by
  unfold Obligations.PrefixesSetOnlyTheirFlag
  intro s
  refine ⟨fun hempty => ?_, exec_interpRel s, exec_interpExtA s, exec_interpExtB s⟩
  rw [exec_interpEmpty, beq_iff_eq.2 hempty, whenSelected_true]

/-- Settles O30: an `ignore` entry is the selector of INTERP_UNRECOGNIZED, so the operation runs. -/
theorem unrecognizedByteClearsBothFlags : Obligations.UnrecognizedByteClearsBothFlags := by
  unfold Obligations.UnrecognizedByteClearsBothFlags
  intro b s hignore
  rw [exec_interpUnrecognized, beq_iff_eq.2 hignore, whenSelected_true]

/-- Settles O29: the calls recorded are those of `resolveCalls`, whose flags are the ones of before the clearing. -/
theorem onlyRealAddressesReachTheDriver : Obligations.OnlyRealAddressesReachTheDriver := by
  unfold Obligations.OnlyRealAddressesReachTheDriver
  intro b s t hnext
  rw [exec_interpResolve_next hnext]
  refine ⟨_, afterCalls_trace s _, fun c hc => ?_⟩
  obtain ⟨call, hcall, rfl⟩ := List.mem_map.1 hc
  exact ⟨resolveCalls_noSentinel _ _ _ call hcall, resolveCalls_level hcall⟩

end Sys2Proof

/-! ### The joystick sampler (spec/44, R133 to R145): the equal snapshot, and what a change row leaves -/

namespace Sys2Proof

open Machine

theorem exec_joypollSame (j : JoyId) (snap : Snapshot) (s : State) :
    exec (.joypollSame j snap) s = whenSelected (snap == s.joyPrev.get j) "JOYPOLL_SAME" (.next s) := rfl

/-- Every change row runs the change branch on its own snapshot, where that differs from the previous one (R136). -/
theorem exec_changeRow {i : Instr} {j : JoyId} {snap : Snapshot} (hrow : rowSnapshot i = some (j, snap)) (s : State) :
    ∃ m, exec i s = whenSelected (snap != s.joyPrev.get j) m (joyChange j snap s) := by
  unfold rowSnapshot at hrow
  split at hrow
  all_goals cases hrow -- the other operations have no row snapshot
  all_goals exact ⟨_, rfl⟩

/-! The driver calls of a change row. -/

/-- The direction names a row opens: those it does not close. -/
def namesOutside (closes : List JoyName) : List JoyName := dirNames.filter fun n => !closes.contains n

/-- The calls `changeTo` makes. -/
def changeCalls (cfg : Configuration) (j : JoyId) (snap : Snapshot) (opens closes : List JoyName) : List DriverCall :=
  [(button1 snap, joyAddr cfg j .b1), (button2 snap, joyAddr cfg j .b2)]
    ++ nameCalls cfg j false opens ++ nameCalls cfg j true closes

theorem mem_namesOutside {closes : List JoyName} {n : JoyName} :
    n ∈ namesOutside closes ↔ n ∈ dirNames ∧ n ∉ closes := by
  simp [namesOutside]

/-- REQ lists its names in the order of DIRNAMES (R133, R136). -/
theorem dirNames_filter_req (c : DirCase) : (dirNames.filter fun n => (req c).contains n) = req c := by
  cases c <;> decide

theorem joyCalls_eq_changeCalls (cfg : Configuration) (j : JoyId) (snap : Snapshot) :
    joyCalls cfg j snap =
      changeCalls cfg j snap (namesOutside (req (dirCase (nibble snap)))) (req (dirCase (nibble snap))) := by
  rw [joyCalls, closeCalls, dirNames_filter_req]
  rfl

theorem mem_changeCalls_of_mem_opens {cfg : Configuration} {j : JoyId} {snap : Snapshot} {opens closes : List JoyName}
    {n : JoyName} (hn : n ∈ opens) : (false, joyAddr cfg j n) ∈ changeCalls cfg j snap opens closes :=
  List.mem_append_left _ (List.mem_append_right _ (List.mem_map_of_mem hn))

theorem mem_changeCalls_of_mem_closes {cfg : Configuration} {j : JoyId} {snap : Snapshot} {opens closes : List JoyName}
    {n : JoyName} (hn : n ∈ closes) : (true, joyAddr cfg j n) ∈ changeCalls cfg j snap opens closes :=
  List.mem_append_right _ (List.mem_map_of_mem hn)

/-- A row that opens every name it does not close makes one of the two calls for each direction name. -/
theorem mem_changeCalls_namesOutside (cfg : Configuration) (j : JoyId) (snap : Snapshot) (closes : List JoyName)
    {n : JoyName} (hn : n ∈ dirNames) :
    (closes.contains n, joyAddr cfg j n) ∈ changeCalls cfg j snap (namesOutside closes) closes := by
  by_cases hc : n ∈ closes
  case pos => simpa [hc] using mem_changeCalls_of_mem_closes hc
  case neg => simpa [hc] using mem_changeCalls_of_mem_opens (mem_namesOutside.2 ⟨hn, hc⟩)

/-! The crosspoints after driver calls. -/

theorem lastWrite_append (cs ds : List DriverCall) (c : BitVec 6) (v : Bool) :
    lastWrite (cs ++ ds) c v = lastWrite ds c (lastWrite cs c v) := List.foldl_append

/-- Calls on other crosspoints leave a crosspoint as it was. -/
theorem lastWrite_nameCalls_of_ne {cfg : Configuration} {j : JoyId} {c : BitVec 6} {ns : List JoyName}
    (h : ∀ n ∈ ns, joyCell cfg j n ≠ c) (on v : Bool) : lastWrite (nameCalls cfg j on ns) c v = v := by
  induction ns generalizing v with
  | nil => rfl
  | cons n rest ih =>
    obtain ⟨hn, hrest⟩ := List.forall_mem_cons.1 h
    exact (congrArg _ (if_neg hn)).trans (ih hrest v)

/-- Calls of one level, one of them on the crosspoint, leave it at that level. -/
theorem lastWrite_nameCalls_of_mem {cfg : Configuration} {j : JoyId} {ns : List JoyName} {n : JoyName} (h : n ∈ ns)
    (on v : Bool) : lastWrite (nameCalls cfg j on ns) (joyCell cfg j n) v = on := by
  have keeps (rest : List JoyName) : lastWrite (nameCalls cfg j on rest) (joyCell cfg j n) on = on := by
    induction rest with
    | nil => rfl
    | cons m rest ih => exact (congrArg _ (ite_self on)).trans ih
  obtain ⟨before, rest, rfl⟩ := List.append_of_mem h
  rw [nameCalls, List.map_append, lastWrite_append]
  exact (congrArg _ (if_pos rfl)).trans (keeps rest)

/-! What `changeTo` leaves. -/

theorem changeTo_trace (s : State) (j : JoyId) (snap : Snapshot) (opens closes : List JoyName) (invalid : Bool) :
    (changeTo s j snap opens closes invalid).trace =
      s.trace ++ (changeCalls s.cfg j snap opens closes).map traceEntry := afterCalls_trace s _

theorem changeTo_closed (s : State) (j : JoyId) (snap : Snapshot) (opens closes : List JoyName) (invalid : Bool)
    (c : BitVec 6) : (changeTo s j snap opens closes invalid).closed c =
      lastWrite (changeCalls s.cfg j snap opens closes) c (s.closed c) := afterCalls_closed s _ c

theorem changeTo_joyPrev_get (s : State) (j : JoyId) (snap : Snapshot) (opens closes : List JoyName) (invalid : Bool) :
    (changeTo s j snap opens closes invalid).joyPrev.get j = snap := PerJoy.get_put_self _ j snap

theorem changeTo_evlog (s : State) (j : JoyId) (snap : Snapshot) (opens closes : List JoyName) (invalid : Bool) :
    (changeTo s j snap opens closes invalid).evlog = s.evlog ++ if invalid then [.joyInvalid j snap] else [] := by
  cases invalid
  case false => exact (List.append_nil s.evlog).symm
  case true => rfl

/-- The closes come last, so a name among them ends closed. -/
theorem changeTo_closed_of_mem_closes {closes : List JoyName} {n : JoyName} (hn : n ∈ closes) (s : State) (j : JoyId)
    (snap : Snapshot) (opens : List JoyName) (invalid : Bool) :
    (changeTo s j snap opens closes invalid).closed (joyCell s.cfg j n) = true := by
  rw [changeTo_closed, changeCalls, lastWrite_append, lastWrite_nameCalls_of_mem hn]

/-- A name among the opens ends open where no close is on its crosspoint. -/
theorem changeTo_open_of_mem_opens {opens closes : List JoyName} {n : JoyName} {s : State} {j : JoyId} (hn : n ∈ opens)
    (hfree : ∀ m ∈ closes, joyCell s.cfg j m ≠ joyCell s.cfg j n) (snap : Snapshot) (invalid : Bool) :
    (changeTo s j snap opens closes invalid).closed (joyCell s.cfg j n) = false := by
  rw [changeTo_closed, changeCalls, lastWrite_append, lastWrite_nameCalls_of_ne hfree, lastWrite_append,
    lastWrite_nameCalls_of_mem hn]

/-- A change row on a table without sentinels closes the names its snapshot requires, opens the other direction names, and
logs its snapshot where the nibble is invalid (R136). -/
theorem exec_changeRow_eq {i : Instr} {j : JoyId} {snap : Snapshot} {s : State} (hrow : rowSnapshot i = some (j, snap))
    (htable : joyTableOk s.cfg j = true) (hchanged : snap ≠ s.joyPrev.get j) :
    exec i s = .next (changeTo s j snap (namesOutside (req (dirCase (nibble snap)))) (req (dirCase (nibble snap)))
      (nibbleInvalid (nibble snap))) := by
  obtain ⟨m, hexec⟩ := exec_changeRow hrow s
  rw [hexec, bne_iff_ne.2 hchanged, whenSelected_true, joyChange_eq htable, joyCalls_eq_changeCalls]
  rfl

/-- The direction bits of a snapshot do not depend on its buttons (R64). -/
theorem nibble_mkSnap (b2 b1 r l d u : Bit) :
    nibble (mkSnap b2 b1 r l d u) = BitVec.ofBool r ++ BitVec.ofBool l ++ BitVec.ofBool d ++ BitVec.ofBool u := by
  revert b2 b1 r l d u
  decide

/-- Settles O33: an equal snapshot is the selector of JOYPOLL_SAME, which answers the state it was given. -/
theorem sameSnapshotDoesNothing : Obligations.SameSnapshotDoesNothing := by
  unfold Obligations.SameSnapshotDoesNothing
  intro j snap s hsame
  rw [exec_joypollSame, beq_iff_eq.2 hsame, whenSelected_true]

/-- Settles O37: each row's snapshot requires exactly the names listed for the row, and `changeTo` says what closing them and
opening the others leaves. -/
theorem directionRowsLeaveExactlyTheirSet : Obligations.DirectionRowsLeaveExactlyTheirSet := by
  unfold Obligations.DirectionRowsLeaveExactlyTheirSet
  intro j b1 b2 s htable p hp hchanged
  obtain ⟨hrow, hreq⟩ : rowSnapshot p.1 = some (j, p.2.1) ∧ req (dirCase (nibble p.2.1)) = p.2.2 := by
    simp only [List.mem_cons, List.not_mem_nil, or_false] at hp
    rcases hp with rfl | rfl | rfl | rfl | rfl | rfl | rfl | rfl <;>
      exact ⟨rfl, by rw [nibble_mkSnap]; rfl⟩
  have hnext := exec_changeRow_eq hrow htable hchanged
  rw [hreq] at hnext
  refine ⟨_, _, hnext, changeTo_joyPrev_get .., changeTo_trace .., ?calls, ?closed, ?opened⟩
  case calls =>
    intro n hn
    exact List.mem_map_of_mem (mem_changeCalls_namesOutside s.cfg j p.2.1 p.2.2 hn)
  case closed =>
    intro n hn
    exact changeTo_closed_of_mem_closes hn ..
  case opened =>
    intro n hn hfree
    have houtside : n ∈ namesOutside p.2.2 := mem_namesOutside.2 ⟨hn, fun hclosed => hfree n hclosed rfl⟩
    exact changeTo_open_of_mem_opens houtside hfree ..

/-- Settles O38: the snapshots of the three rows require no name, so all eight are opened and nothing is closed after; the two
invalid ones are those with an invalid nibble. -/
theorem noneRowsLeaveEveryDirectionOpen : Obligations.NoneRowsLeaveEveryDirectionOpen := by
  unfold Obligations.NoneRowsLeaveEveryDirectionOpen
  intro j x y b1 b2 s htable p hp hchanged
  obtain ⟨hrow, hreq, hinvalid⟩ : rowSnapshot p.1 = some (j, p.2.1) ∧ req (dirCase (nibble p.2.1)) = [] ∧
      nibbleInvalid (nibble p.2.1) = p.2.2 := by
    simp only [List.mem_cons, List.not_mem_nil, or_false] at hp
    rcases hp with rfl | rfl | rfl <;>
      exact ⟨rfl, by rw [nibble_mkSnap]; cases x <;> cases y <;> exact ⟨rfl, rfl⟩⟩
  have hnext := exec_changeRow_eq hrow htable hchanged
  rw [hreq, hinvalid] at hnext
  refine ⟨_, _, hnext, changeTo_joyPrev_get .., changeTo_trace .., fun n hn => ⟨?call, ?opened⟩, changeTo_evlog ..⟩
  case call => exact List.mem_map_of_mem (mem_changeCalls_namesOutside s.cfg j p.2.1 [] hn)
  case opened => exact changeTo_open_of_mem_opens (mem_namesOutside.2 ⟨hn, List.not_mem_nil⟩) (by simp) ..

end Sys2Proof

/-! ### Reset and hazards (spec/70, R189): the configuration is constant -/

namespace Sys2Proof

open Machine

/-- R189 for an action: a next state it answers has the configuration of the state it ran in. -/
def KeepsConfiguration (o : State → Res State) : Prop :=
  ∀ ⦃s t : State⦄, o s = .next t → t.cfg = s.cfg

namespace KeepsConfiguration

/-- An action that always answers a next state. -/
theorem ofNext {f : State → State} (h : ∀ s, (f s).cfg = s.cfg) : KeepsConfiguration fun s => .next (f s) := by
  intro s t hnext
  cases hnext
  exact h s

/-- An action that leaves the state as it is. -/
theorem unchanged : KeepsConfiguration .next := ofNext fun _ => rfl

/-- Two actions in sequence. -/
theorem seq {o k : State → Res State} (ho : KeepsConfiguration o) (hk : KeepsConfiguration k) :
    KeepsConfiguration fun s => andThen (o s) k := by
  intro s t hnext
  obtain ⟨u, hu, ht⟩ := andThen_eq_next.1 hnext
  exact (hk ht).trans (ho hu)

end KeepsConfiguration

/-! The actions the operations share. -/

theorem UsesOnlySerialState.keepsConfiguration {o : State → Res State} (h : UsesOnlySerialState o) :
    KeepsConfiguration o := by
  intro s t hnext
  rw [h.writes hnext]

theorem bufPop_cfg {s : State} {p : Option Byte × State} (h : bufPop s = .next p) : p.2.cfg = s.cfg := by
  rcases bufPop_next h with ⟨-, rfl⟩ | ⟨-, -, rfl⟩ <;> rfl

theorem keepsConfiguration_runCalls (cs : List DriverCall) : KeepsConfiguration (runCalls cs) := by
  intro s t hnext
  rw [(runCalls_next hnext).2, afterCalls_cfg]

/-- One driver call is a list of one. -/
theorem keepsConfiguration_setSwitch (on : Bool) (a : SwitchAddress) : KeepsConfiguration (setSwitch on a) :=
  fun _ t hnext => keepsConfiguration_runCalls [(on, a)] (andThen_eq_next.2 ⟨t, hnext, rfl⟩)

theorem keepsConfiguration_joyChange (j : JoyId) (snap : Snapshot) : KeepsConfiguration (joyChange j snap) := by
  intro s t hnext
  rw [(joyChange_next hnext).2]
  exact afterCalls_cfg s _

theorem keepsConfiguration_joyPoll (j : JoyId) (snap : Snapshot) : KeepsConfiguration (joyPoll j snap) := by
  intro s t hnext
  unfold joyPoll at hnext
  split at hnext
  case isTrue => exact KeepsConfiguration.unchanged hnext
  case isFalse => exact keepsConfiguration_joyChange j snap hnext

theorem keepsConfiguration_interpRelOp : KeepsConfiguration interpRelOp := .ofNext fun _ => rfl

theorem keepsConfiguration_interpExtOp : KeepsConfiguration interpExtOp := .ofNext fun _ => rfl

theorem keepsConfiguration_interpUnrecognizedOp (b : Byte) : KeepsConfiguration (interpUnrecognizedOp b) :=
  .ofNext fun _ => rfl

theorem keepsConfiguration_interpResolveOp (e : ScanEntry) : KeepsConfiguration (interpResolveOp e) := by
  intro s t hnext
  rw [interpResolveOp_eq] at hnext
  cases hnext
  exact afterCalls_cfg s _

theorem keepsConfiguration_interpByte (b : Byte) : KeepsConfiguration (interpByte b) := by
  intro s t hnext
  unfold interpByte at hnext
  split at hnext
  · exact keepsConfiguration_interpRelOp hnext
  · exact keepsConfiguration_interpExtOp hnext
  · exact keepsConfiguration_interpResolveOp _ hnext
  · exact keepsConfiguration_interpUnrecognizedOp b hnext

theorem keepsConfiguration_interp : KeepsConfiguration interp := by
  intro s t hnext
  obtain ⟨⟨r, u⟩, hpop, ht⟩ := andThen_eq_next.1 hnext
  refine Eq.trans ?_ (bufPop_cfg hpop)
  cases r with
  | none => exact KeepsConfiguration.unchanged ht
  | some b => exact keepsConfiguration_interpByte b ht

theorem keepsConfiguration_dispatchOp {run : State → Res State} (h : KeepsConfiguration run) :
    KeepsConfiguration (dispatchOp run) :=
  h.seq (.ofNext nextSlot_cfg)

/-- RESET gives the core its reset values under the configuration it found (R175, R179). -/
theorem initialValues_cfg (s : State) : (initialValues s).cfg = s.cfg := by
  simp only [initialValues, State.afterBoot]

theorem keepsConfiguration_boot : KeepsConfiguration boot := by
  intro s t hnext
  unfold boot at hnext
  split at hnext
  case h_1 => cases hnext -- a configuration that is not well-formed
  case h_2 =>
    rw [← initialValues_cfg s]
    exact (keepsConfiguration_runCalls matrixCalls).seq (.ofNext enableIrq_cfg) hnext

/-! The operations. -/

theorem keepsConfiguration_of_rowSnapshot {i : Instr} {p : JoyId × Snapshot} (hrow : rowSnapshot i = some p) :
    KeepsConfiguration (exec i) := by
  intro s t hnext
  obtain ⟨m, hexec⟩ := exec_changeRow hrow s
  rw [hexec] at hnext
  exact keepsConfiguration_joyChange p.1 p.2 (whenSelected_eq_next.1 hnext).2

theorem keepsConfiguration_pop : KeepsConfiguration (exec .pop) := by
  intro s t hnext
  obtain ⟨p, hpop, ht⟩ := andThen_eq_next.1 hnext
  cases ht
  exact bufPop_cfg hpop

theorem keepsConfiguration_exec : ∀ i : Instr, KeepsConfiguration (exec i)
  | .edgeStart _ | .edgeData .. | .edgeParity _ | .edgeStop _ | .frameAccept .. | .frameReject _ | .push _ =>
    (usesOnlySerialState_exec rfl).keepsConfiguration
  | .pop => keepsConfiguration_pop
  | .interpRel => keepsConfiguration_interpRelOp
  | .interpExtA | .interpExtB => keepsConfiguration_interpExtOp
  | .interpEmpty | .joypollSame .. => fun _ _ h => KeepsConfiguration.unchanged (whenSelected_eq_next.1 h).2
  | .interpResolve b => fun s _ h => keepsConfiguration_interpResolveOp (scan s.cfg b) (whenSelected_eq_next.1 h).2
  | .interpUnrecognized b => fun _ _ h => keepsConfiguration_interpUnrecognizedOp b (whenSelected_eq_next.1 h).2
  | .joypollNone .. | .joypollNoneInvalidUd .. | .joypollNoneInvalidLr .. | .joypollU .. | .joypollD .. | .joypollL ..
  | .joypollR .. | .joypollUl .. | .joypollUr .. | .joypollDr .. | .joypollDl .. =>
    keepsConfiguration_of_rowSnapshot rfl
  | .setswitchOn _ | .setswitchOff _ | .setswitchSentinel .. => keepsConfiguration_setSwitch _ _
  | .matrixReset => keepsConfiguration_runCalls matrixCalls
  | .dispatchJoyL => fun s _ h =>
    keepsConfiguration_dispatchOp (keepsConfiguration_joyPoll .l (s.sample .l)) (whenSelected_eq_next.1 h).2
  | .dispatchJoyR => fun s _ h =>
    keepsConfiguration_dispatchOp (keepsConfiguration_joyPoll .r (s.sample .r)) (whenSelected_eq_next.1 h).2
  | .dispatchInterp => fun _ _ h =>
    keepsConfiguration_dispatchOp keepsConfiguration_interp (whenSelected_eq_next.1 h).2
  | .reset => keepsConfiguration_boot

/-! The steps. -/

theorem keepsConfiguration_runDecoded (r : Except DecodeError Instr) : KeepsConfiguration (runDecoded r) := by
  intro s t hnext
  unfold runDecoded at hnext
  split at hnext
  case h_1 i => exact keepsConfiguration_exec i hnext
  case h_2 => cases hnext -- a word that does not decode

theorem keepsConfiguration_takeEdge (v : Bit) : KeepsConfiguration (takeEdge v) := by
  intro s t hnext
  unfold takeEdge at hnext
  split at hnext
  case isTrue => exact keepsConfiguration_runDecoded _ hnext
  case isFalse => exact KeepsConfiguration.unchanged hnext

theorem keepsConfiguration_takeLostEdge (v : Bit) : KeepsConfiguration (takeLostEdge v) := by
  intro s t hnext
  unfold takeLostEdge at hnext
  split at hnext
  case isTrue => exact KeepsConfiguration.unchanged hnext
  case isFalse => exact keepsConfiguration_takeEdge v hnext

theorem keepsConfiguration_takePoll : KeepsConfiguration takePoll :=
  fun s _ hnext => keepsConfiguration_exec (decodeSlot s.component) hnext

theorem keepsConfiguration_takeItem : ∀ it : Item, KeepsConfiguration (takeItem it)
  | .edge v => keepsConfiguration_takeEdge v
  | .lostEdge v => keepsConfiguration_takeLostEdge v
  | .joy j raw => .ofNext fun s => setLines_cfg s j raw
  | .poll => keepsConfiguration_takePoll
  | .reset => keepsConfiguration_exec .reset
  | .word w => fun s _ hnext => keepsConfiguration_runDecoded (decode s.cfg w) hnext

theorem keepsConfiguration_runSchedule : KeepsConfiguration runSchedule := by
  intro s t hnext
  unfold runSchedule at hnext
  split at hnext
  case h_1 => exact keepsConfiguration_takePoll hnext
  case h_2 it rest _ => exact (keepsConfiguration_takeItem it hnext).trans rfl

/-- A step that answers a next state passed the marks and the configuration checks, and the schedule gave that state. -/
theorem runSchedule_of_step_next {s t : State} (h : step s = .next t) : runSchedule s = .next t := by
  unfold step runNext at h
  split at h
  case h_1 => cases h -- a faulted state
  case h_2 =>
    split at h
    case isTrue => cases h -- a refused state
    case isFalse =>
      split at h
      case h_1 => cases h -- a configuration that is not well-formed
      case h_2 => exact h

/-- Settles O57: every operation is built, by selection and sequence, from actions that keep the configuration, and every step
runs one operation or an event of the environment. -/
theorem configurationIsNeverWritten : Obligations.ConfigurationIsNeverWritten := by
  unfold Obligations.ConfigurationIsNeverWritten
  exact ⟨fun i _ _ hnext => keepsConfiguration_exec i hnext,
    fun _ _ hnext => keepsConfiguration_runSchedule (runSchedule_of_step_next hnext)⟩

end Sys2Proof

/-! ### Operation words (spec/30): every format is read back, and every word is written back -/

namespace Sys2Proof

open Machine

/-! The bits of the formats. -/

/-- The three parts of an operation word give the word back. -/
theorem opWord_of_parts {w : BitVec 32} {tag : Nat} (h : w.extractLsb' 24 8 = BitVec.ofNat 8 tag) :
    opWord tag (w.extractLsb' 16 8) (w.extractLsb' 0 16) = w := by
  refine BitVec.eq_of_getLsbD_eq fun i hi => ?_
  rw [opWord_getLsbD, ← h]
  simp only [BitVec.getLsbD_extractLsb']
  split
  · simp_all
  · split
    · simp [show i - 16 < 8 by omega, show 16 + (i - 16) = i by omega]
    · simp [show i - 24 < 8 by omega, show 24 + (i - 24) = i by omega]

/-- The low bits of a format's field that is no wider are the whole field. -/
theorem setWidth_extractLsb'_of_lt {p : BitVec 16} {n : Nat} (h : p.toNat < 2 ^ n) :
    (p.extractLsb' 0 n).setWidth 16 = p := by
  refine BitVec.eq_of_toNat_eq ?_
  rw [BitVec.toNat_setWidth, BitVec.extractLsb'_toNat, Nat.shiftRight_zero, Nat.mod_eq_of_lt h, Nat.mod_eq_of_lt p.isLt]

theorem extractLsb'_setWidth {n : Nat} (x : BitVec n) (h : n ≤ 16) : (x.setWidth 16).extractLsb' 0 n = x := by
  refine BitVec.eq_of_toNat_eq ?_
  have hx : x.toNat < 2 ^ 16 := x.isLt.trans_le (Nat.pow_le_pow_right (by decide) h)
  rw [BitVec.extractLsb'_toNat, Nat.shiftRight_zero, BitVec.toNat_setWidth, Nat.mod_eq_of_lt hx, Nat.mod_eq_of_lt x.isLt]

theorem setWidth_lt {n k : Nat} (x : BitVec n) (hk : k < 2 ^ 16) (h : 2 ^ n ≤ k) :
    x.setWidth 16 < BitVec.ofNat 16 k := by
  have hx := x.isLt
  rw [BitVec.lt_def, BitVec.toNat_setWidth, BitVec.toNat_ofNat, Nat.mod_eq_of_lt hk]
  omega

theorem ofBool_of_lt_two : ∀ o : BitVec 8, o < 2#8 → 0#7 ++ BitVec.ofBool (o.getLsbD 0) = o := by decide

theorem snapOperands_of_lt_four :
    ∀ o : BitVec 8, o < 4#8 → snapOperands (joyOfBit (o.getLsbD 0)) (o.getLsbD 1) = o := by decide

/-- The samples of `mkFrame d p`, from the start bit up (R59). -/
theorem mkFrame_getLsbD (d : Byte) (p : Bit) (i : Nat) :
    (mkFrame d p).getLsbD i =
      if i < 1 then false else if i < 9 then d.getLsbD (i - 1) else if i = 9 then p else decide (i = 10) := by
  change (1#1 ++ BitVec.ofBool p ++ d ++ 0#1 : BitVec (1 + 1 + 8 + 1)).getLsbD i = _
  simp only [BitVec.getLsbD_append]
  split
  · simp
  · split
    · simp [show i < 9 by omega]
    · by_cases h9 : i = 9
      · simp [h9]
      · simp [h9, show ¬ i < 9 by omega, show i - 1 - 8 ≠ 0 by omega, show i - 1 - 8 - 1 = 0 ↔ i = 10 by omega]

theorem frameStart_mkFrame (d : Byte) (p : Bit) : frameStart (mkFrame d p) = false := by
  simp only [frameStart, mkFrame_getLsbD, Nat.zero_lt_one, if_true]

theorem frameParity_mkFrame (d : Byte) (p : Bit) : frameParity (mkFrame d p) = p := by
  rw [frameParity, mkFrame_getLsbD]
  rfl

theorem frameData_mkFrame (d : Byte) (p : Bit) : frameData (mkFrame d p) = d := by
  refine BitVec.eq_of_getLsbD_eq fun i hi => ?_
  rw [frameData, BitVec.getLsbD_extractLsb', mkFrame_getLsbD]
  simp [hi, show 1 + i < 9 by omega]

/-- A frame word with start 0 and stop 1 is made of its data byte and its parity sample (R59). -/
theorem mkFrame_of_start_stop {w : FrameWord} (hstart : frameStart w = false) (hstop : frameStop w = true) :
    mkFrame (frameData w) (frameParity w) = w := by
  refine BitVec.eq_of_getLsbD_eq fun i hi => ?_
  rw [mkFrame_getLsbD, frameData, BitVec.getLsbD_extractLsb']
  split
  case isTrue h => rw [show i = 0 by omega]; exact hstart.symm
  case isFalse h =>
    split
    case isTrue h9 => simp only [show i - 1 < 8 by omega, show 1 + (i - 1) = i by omega, decide_true, Bool.true_and]
    case isFalse h9 =>
      rcases (by omega : i = 9 ∨ i = 10) with rfl | rfl
      · rfl
      · exact hstop.symm

theorem mkFrame_of_valid {w : FrameWord} (h : frameValid w = true) : mkFrame (frameData w) (frameParity w) = w := by
  simp only [frameValid, Bool.and_eq_true, Bool.not_eq_true'] at h
  obtain ⟨⟨hstart, hstop⟩, -⟩ := h
  exact mkFrame_of_start_stop hstart hstop

/-- The bits of a switch address put together from its sentinel bit and the others (R61). -/
theorem ofBool_append_getLsbD (b : Bit) (a : BitVec 7) (i : Nat) :
    (BitVec.ofBool b ++ a : SwitchAddress).getLsbD i = if i < 7 then a.getLsbD i else decide (i = 7) && b := by
  rw [BitVec.getLsbD_append]
  split
  case isTrue h => rfl
  case isFalse h => simp [show i - 7 = 0 ↔ i = 7 by omega]

theorem isSentinel_ofBool_append (b : Bit) (a : BitVec 7) : isSentinel (BitVec.ofBool b ++ a) = b := by
  rw [isSentinel, ofBool_append_getLsbD]
  rfl

theorem extractLsb'_ofBool_append (b : Bit) (a : BitVec 7) :
    (BitVec.ofBool b ++ a : SwitchAddress).extractLsb' 0 7 = a := by
  refine BitVec.eq_of_getLsbD_eq fun i hi => ?_
  rw [BitVec.getLsbD_extractLsb', ofBool_append_getLsbD]
  simp [hi]

theorem isSentinel_append_extractLsb' (a : SwitchAddress) : BitVec.ofBool (isSentinel a) ++ a.extractLsb' 0 7 = a := by
  refine BitVec.eq_of_getLsbD_eq fun i hi => ?_
  rw [ofBool_append_getLsbD, BitVec.getLsbD_extractLsb', isSentinel]
  split
  case isTrue h => simp [h]
  case isFalse h => simp [show i = 7 by omega]

/-! Every format's decoder inverts its encoder. -/

theorem strict_eq_ok {clean : Bool} {r : Except DecodeError Instr} {i : Instr} :
    strict clean r = .ok i ↔ clean = true ∧ r = .ok i := by
  cases clean <;> simp [strict]

theorem decodeParts_pos (cfg : Configuration) (o : BitVec 8) (p : BitVec 16) :
    decodeParts cfg (BitVec.ofNat 8 tagPos) o p =
      strict (decide (p < 16#16) && decide (o < 2#8)) (decodeEdge p.toNat (o.getLsbD 0)) := rfl

theorem decodeParts_frame (cfg : Configuration) (o : BitVec 8) (p : BitVec 16) :
    decodeParts cfg (BitVec.ofNat 8 tagFrame) o p =
      strict (decide (p < 2048#16) && o == 0#8) (.ok (decodeFrame (p.extractLsb' 0 11))) := rfl

theorem decodeParts_push (cfg : Configuration) (o : BitVec 8) (p : BitVec 16) :
    decodeParts cfg (BitVec.ofNat 8 tagPush) o p =
      strict (decide (p < 256#16) && o == 0#8) (.ok (.push (p.extractLsb' 0 8))) := rfl

theorem decodeParts_pop (cfg : Configuration) (o : BitVec 8) (p : BitVec 16) :
    decodeParts cfg (BitVec.ofNat 8 tagPop) o p = strict (o == 0#8 && p == 0#16) (.ok .pop) := rfl

theorem decodeParts_empty (cfg : Configuration) (o : BitVec 8) (p : BitVec 16) :
    decodeParts cfg (BitVec.ofNat 8 tagEmpty) o p = strict (o == 0#8 && p == 0#16) (.ok .interpEmpty) := rfl

theorem decodeParts_scan (cfg : Configuration) (o : BitVec 8) (p : BitVec 16) :
    decodeParts cfg (BitVec.ofNat 8 tagScan) o p =
      strict (decide (p < 256#16) && o == 0#8) (.ok (decodeScan cfg (p.extractLsb' 0 8))) := rfl

theorem decodeParts_snap (cfg : Configuration) (o : BitVec 8) (p : BitVec 16) :
    decodeParts cfg (BitVec.ofNat 8 tagSnap) o p =
      strict (decide (p < 64#16) && decide (o < 4#8))
        (.ok (decodeSnap (joyOfBit (o.getLsbD 0)) (o.getLsbD 1) (p.extractLsb' 0 6))) := rfl

theorem decodeParts_switch (cfg : Configuration) (o : BitVec 8) (p : BitVec 16) :
    decodeParts cfg (BitVec.ofNat 8 tagSwitch) o p =
      strict (decide (p < 256#16) && decide (o < 2#8)) (.ok (decodeSwitch (o.getLsbD 0) (p.extractLsb' 0 8))) := rfl

theorem decodeParts_slot (cfg : Configuration) (o : BitVec 8) (p : BitVec 16) :
    decodeParts cfg (BitVec.ofNat 8 tagSlot) o p =
      strict (o == 0#8) (if p = 0#16 then .ok (decodeSlot .joyL) else if p = 1#16 then .ok (decodeSlot .joyR)
        else if p = 2#16 then .ok (decodeSlot .interp) else .error .slot) := rfl

theorem decodeParts_matrix (cfg : Configuration) (o : BitVec 8) (p : BitVec 16) :
    decodeParts cfg (BitVec.ofNat 8 tagMatrix) o p = strict (o == 0#8 && p == 0#16) (.ok .matrixReset) := rfl

theorem decodeParts_reset (cfg : Configuration) (o : BitVec 8) (p : BitVec 16) :
    decodeParts cfg (BitVec.ofNat 8 tagReset) o p = strict (o == 0#8 && p == 0#16) (.ok .reset) := rfl

/-- A format number that decodes is one of the eleven, or the bare one. -/
theorem tag_of_decodeParts {cfg : Configuration} {tag o : BitVec 8} {p : BitVec 16} {i : Instr}
    (h : decodeParts cfg tag o p = .ok i) : ∃ n ≤ tagReset, tag = BitVec.ofNat 8 n := by
  by_contra hn
  have hne (n : Nat) (hle : n ≤ tagReset) : tag ≠ BitVec.ofNat 8 n := fun heq => hn ⟨n, hle, heq⟩
  simp only [decodeParts, hne tagBare (by decide), hne tagPos (by decide), hne tagFrame (by decide),
    hne tagPush (by decide), hne tagPop (by decide), hne tagEmpty (by decide), hne tagScan (by decide),
    hne tagSnap (by decide), hne tagSwitch (by decide), hne tagSlot (by decide), hne tagMatrix (by decide),
    hne tagReset (by decide), if_false, reduceCtorEq] at h

/-- An operation that has no check on its operands is well-formed. -/
theorem wellFormed_iff {cfg : Configuration} {i : Instr} : WellFormed cfg i = true ↔ failedInstrCheck cfg i = none :=
  Option.isNone_iff_eq_none

/-! SEL-POS. -/

theorem decodeEdge_data (k : Fin 8) (v : Bit) : decodeEdge (k.val + 2) v = .ok (.edgeData k v) := by
  have hk := k.isLt
  simp [decodeEdge, show k.val ≠ 8 by omega, show k.val ≠ 9 by omega, show k.val + 2 ≤ 9 by omega]

/-- The four ranges of positions (R71a). -/
theorem decodeEdge_cases {pos : Nat} {v : Bit} {i : Instr} (h : decodeEdge pos v = .ok i) :
    (pos = 1 ∧ i = .edgeStart v) ∨ (∃ k : Fin 8, pos = k.val + 2 ∧ i = .edgeData k v) ∨
    (pos = 10 ∧ i = .edgeParity v) ∨ (pos = 11 ∧ i = .edgeStop v) := by
  unfold decodeEdge at h
  split at h
  · next hp => cases h; exact .inl ⟨hp, rfl⟩
  · split at h
    · next hp => cases h; exact .inr (.inr (.inl ⟨hp, rfl⟩))
    · split at h
      · next hp => cases h; exact .inr (.inr (.inr ⟨hp, rfl⟩))
      · split at h
        · next hp => cases h; exact .inr (.inl ⟨⟨pos - 2, by omega⟩, (Nat.sub_add_cancel hp.1).symm, rfl⟩)
        · cases h

theorem decode_encodeEdge (cfg : Configuration) {pos : Nat} (hpos : pos < 16) (v : Bit) :
    decode cfg (encodeEdge pos v) = decodeEdge pos v := by
  have hv : (decide (0#7 ++ BitVec.ofBool v < 2#8)) = true ∧ (0#7 ++ BitVec.ofBool v : BitVec 8).getLsbD 0 = v := by
    revert v
    decide
  have hp : (BitVec.ofNat 16 pos).toNat = pos := Nat.mod_eq_of_lt (by omega)
  have hlt : decide (BitVec.ofNat 16 pos < 16#16) = true := decide_eq_true (by rw [BitVec.lt_def, hp]; exact hpos)
  rw [encodeEdge, decode_opWord, decodeParts_pos, hlt, hv.1, hv.2, hp]
  rfl

theorem encode_of_decodeEdge (cfg : Configuration) {pos : Nat} {v : Bit} {i : Instr} (h : decodeEdge pos v = .ok i) :
    encode cfg i = encodeEdge pos v ∧ WellFormed cfg i = true := by
  rcases decodeEdge_cases h with ⟨rfl, rfl⟩ | ⟨k, rfl, rfl⟩ | ⟨rfl, rfl⟩ | ⟨rfl, rfl⟩ <;> exact ⟨rfl, rfl⟩

/-! F-FRAME. -/

theorem decode_frameWord (cfg : Configuration) (w : FrameWord) :
    decode cfg (opWord tagFrame 0#8 (w.setWidth 16)) = .ok (decodeFrame w) := by
  rw [decode_opWord, decodeParts_frame, extractLsb'_setWidth w (by decide),
    decide_eq_true (setWidth_lt w (by decide) (by decide))]
  rfl

theorem decodeFrame_mkFrame {d : Byte} {p : Bit} (h : frameValid (mkFrame d p) = true) :
    decodeFrame (mkFrame d p) = .frameAccept d p := by
  rw [decodeFrame, if_pos h, frameData_mkFrame, frameParity_mkFrame]

theorem encode_decodeFrame (cfg : Configuration) (w : FrameWord) :
    encode cfg (decodeFrame w) = opWord tagFrame 0#8 (w.setWidth 16) ∧ WellFormed cfg (decodeFrame w) = true := by
  rw [wellFormed_iff, decodeFrame]
  split
  case isTrue h => simp only [encode, failedInstrCheck, mkFrame_of_valid h, h, if_true, and_self]
  case isFalse h => simp only [encode, failedInstrCheck, h, if_false, and_self, Bool.false_eq_true]

/-! F-SCAN. -/

theorem decode_encodeScan (cfg : Configuration) (b : Byte) : decode cfg (encodeScan b) = .ok (decodeScan cfg b) := by
  rw [encodeScan, decode_opWord, decodeParts_scan, extractLsb'_setWidth b (by decide),
    decide_eq_true (setWidth_lt b (by decide) (by decide))]
  rfl

/-- A byte that SCAN_TABLE does not ignore is listed with the entry it gives. -/
theorem scanLookup_mem (l : List (Byte × ScanEntry)) (b : Byte) : scanLookup l b = .ignore ∨ ∃ e, (b, e) ∈ l := by
  induction l with
  | nil => exact .inl rfl
  | cons c rest ih =>
    obtain ⟨a, e⟩ := c
    by_cases h : a = b
    · exact .inr ⟨e, by simp [h]⟩
    · rw [scanLookup, if_neg h]
      exact ih.imp_right fun ⟨e', he'⟩ => ⟨e', List.mem_cons_of_mem _ he'⟩

/-- A check on the listed bytes that holds of `ignore` holds of every byte. -/
theorem scan_of_scanEntries_all {cfg : Configuration} {f : Byte × ScanEntry → Bool} (h : (scanEntries cfg).all f = true)
    (hignore : ∀ b, f (b, .ignore) = true) (b : Byte) : f (b, scan cfg b) = true := by
  rcases scanLookup_mem cfg.scanTable b with hb | ⟨e, he⟩
  · rw [scan, hb]
    exact hignore b
  · exact List.all_eq_true.1 h _ (List.mem_map_of_mem (f := fun p => (p.1, scan cfg p.1)) he)

theorem passes_of_wellFormed {cfg : Configuration} (h : cfgWellFormed cfg = true) (c : ConfigCheck) :
    passes cfg c = true :=
  List.all_eq_true.1 h c (by cases c <;> decide)

theorem extCodeA_ne_extCodeB {cfg : Configuration} (h : cfgWellFormed cfg = true) : cfg.extCodeA ≠ cfg.extCodeB := by
  have hpass := passes_of_wellFormed h .prefixDistinct
  simp only [passes, Bool.and_eq_true, bne_iff_ne] at hpass
  exact hpass.2

/-- `cfg_prefix_tags` (R10): the three prefix codes have their tags, and no other byte has one. -/
theorem scan_prefixes {cfg : Configuration} (h : cfgWellFormed cfg = true) :
    scan cfg cfg.relCode = .setRelease ∧ scan cfg cfg.extCodeA = .setExtended ∧ scan cfg cfg.extCodeB = .setExtended ∧
    ∀ b, tagAllowed cfg (b, scan cfg b) = true := by
  have hpass := passes_of_wellFormed h .prefixTags
  simp only [passes, Bool.and_eq_true, beq_iff_eq] at hpass
  obtain ⟨⟨⟨hrel, hextA⟩, hextB⟩, hall⟩ := hpass
  exact ⟨hrel, hextA, hextB, scan_of_scanEntries_all hall fun _ => rfl⟩

theorem encode_decodeScan {cfg : Configuration} (h : cfgWellFormed cfg = true) (b : Byte) :
    encode cfg (decodeScan cfg b) = encodeScan b ∧ WellFormed cfg (decodeScan cfg b) = true := by
  obtain ⟨-, -, -, htag⟩ := scan_prefixes h
  have hb := htag b
  rw [wellFormed_iff, decodeScan]
  split
  case h_1 hscan =>
    rw [hscan] at hb
    exact ⟨congrArg encodeScan (beq_iff_eq.1 hb).symm, rfl⟩
  case h_2 hscan =>
    simp only [hscan, tagAllowed, Bool.or_eq_true, beq_iff_eq] at hb
    split
    case isTrue hB => exact ⟨congrArg encodeScan hB.symm, rfl⟩
    case isFalse hB => exact ⟨congrArg encodeScan (hb.resolve_right hB).symm, rfl⟩
  case h_3 hscan => exact ⟨rfl, by rw [failedInstrCheck, hscan]; rfl⟩
  case h_4 hscan => exact ⟨rfl, if_pos hscan⟩

/-- The operations of F-SCAN are read back from their byte. -/
theorem decodeScan_resolve {cfg : Configuration} {b : Byte} (h : isResolve (scan cfg b) = true) :
    decodeScan cfg b = .interpResolve b := by
  unfold decodeScan
  cases hscan : scan cfg b <;> simp_all [isResolve]

theorem decodeScan_ignore {cfg : Configuration} {b : Byte} (h : scan cfg b = .ignore) :
    decodeScan cfg b = .interpUnrecognized b := by
  rw [decodeScan, h]

/-! F-SNAP. -/

theorem decode_snapWord (cfg : Configuration) (j : JoyId) (same : Bool) (s : Snapshot) :
    decode cfg (opWord tagSnap (snapOperands j same) (s.setWidth 16)) = .ok (decodeSnap j same s) := by
  have ho : decide (snapOperands j same < 4#8) = true ∧ joyOfBit ((snapOperands j same).getLsbD 0) = j ∧
      (snapOperands j same).getLsbD 1 = same := by
    cases j <;> cases same <;> decide
  obtain ⟨hlt, hjoy, hsame⟩ := ho
  rw [decode_opWord, decodeParts_snap, extractLsb'_setWidth s (by decide), hlt, hjoy, hsame,
    decide_eq_true (setWidth_lt s (by decide) (by decide))]
  rfl

/-- A changed snapshot decodes to the row of that snapshot (R70, R71d). -/
theorem rowSnapshot_decodeSnap : ∀ (j : JoyId) (s : Snapshot), rowSnapshot (decodeSnap j false s) = some (j, s)
  | .l => by decide
  | .r => by decide

theorem encode_of_rowSnapshot (cfg : Configuration) {i : Instr} {j : JoyId} {s : Snapshot}
    (h : rowSnapshot i = some (j, s)) : encode cfg i = encodeSnap j s := by
  unfold rowSnapshot at h
  split at h
  all_goals cases h -- the other operations have no row snapshot
  all_goals rfl

/-- The fields of a snapshot put together from its bits (R64). -/
theorem mkSnap_bits : ∀ b2 b1 r l d u : Bit,
    button2 (mkSnap b2 b1 r l d u) = b2 ∧ button1 (mkSnap b2 b1 r l d u) = b1 ∧
    (mkSnap b2 b1 r l d u).getLsbD 3 = r ∧ (mkSnap b2 b1 r l d u).getLsbD 2 = l ∧
    (mkSnap b2 b1 r l d u).getLsbD 1 = d ∧ (mkSnap b2 b1 r l d u).getLsbD 0 = u := by decide

/-- A change row is read back from its snapshot where it is well-formed: two rows share nibble 1111 (R137). -/
theorem decodeSnap_of_rowSnapshot {cfg : Configuration} {i : Instr} {j : JoyId} {s : Snapshot}
    (h : rowSnapshot i = some (j, s)) (hwf : WellFormed cfg i = true) : decodeSnap j false s = i := by
  unfold rowSnapshot at h
  split at h
  case h_3 u d _ _ =>
    have hud : (u && d) = false := by
      rw [wellFormed_iff, failedInstrCheck] at hwf
      cases hand : u && d with
      | false => rfl
      | true => rw [if_pos hand] at hwf; cases hwf
    cases h
    simp only [decodeSnap, mkSnap_bits, hud]
    rfl
  all_goals cases h -- the other operations have no row snapshot
  all_goals simp only [decodeSnap, mkSnap_bits, nibble_mkSnap]
  all_goals rfl

theorem wellFormed_decodeSnap (cfg : Configuration) (j : JoyId) (same : Bool) (s : Snapshot) :
    WellFormed cfg (decodeSnap j same s) = true := by
  rw [wellFormed_iff]
  unfold decodeSnap
  split
  · rfl
  · split
    · rfl
    · next hud =>
      split
      · exact if_neg hud
      · split <;> rfl

theorem encode_decodeSnap (cfg : Configuration) (j : JoyId) (same : Bool) (s : Snapshot) :
    encode cfg (decodeSnap j same s) = opWord tagSnap (snapOperands j same) (s.setWidth 16) := by
  cases same with
  | false => exact encode_of_rowSnapshot cfg (rowSnapshot_decodeSnap j s)
  | true => rfl

/-! F-SWADDR and SEL-SLOT. -/

theorem decode_encodeSwitch (cfg : Configuration) (on : Bit) (a : SwitchAddress) :
    decode cfg (encodeSwitch on a) = .ok (decodeSwitch on a) := by
  have ho : decide (0#7 ++ BitVec.ofBool on < 2#8) = true ∧ (0#7 ++ BitVec.ofBool on : BitVec 8).getLsbD 0 = on := by
    cases on <;> decide
  rw [encodeSwitch, decode_opWord, decodeParts_switch, extractLsb'_setWidth a (by decide), ho.1, ho.2,
    decide_eq_true (setWidth_lt a (by decide) (by decide))]
  rfl

theorem decodeSwitch_ofBool_append (on b : Bit) (a : BitVec 7) :
    decodeSwitch on (BitVec.ofBool b ++ a) =
      if b then .setswitchSentinel on a else if on then .setswitchOn a else .setswitchOff a := by
  simp only [decodeSwitch, isSentinel_ofBool_append, extractLsb'_ofBool_append]

theorem encode_decodeSwitch (cfg : Configuration) (on : Bit) (a : SwitchAddress) :
    encode cfg (decodeSwitch on a) = encodeSwitch on a ∧ WellFormed cfg (decodeSwitch on a) = true := by
  rw [← isSentinel_append_extractLsb' a, decodeSwitch_ofBool_append]
  cases isSentinel a <;> cases on <;> exact ⟨rfl, rfl⟩

theorem encode_decodeSlot (cfg : Configuration) {p : BitVec 16} {i : Instr}
    (h : (if p = 0#16 then .ok (decodeSlot .joyL) else if p = 1#16 then .ok (decodeSlot .joyR)
      else if p = 2#16 then .ok (decodeSlot .interp) else .error .slot : Except DecodeError Instr) = .ok i) :
    encode cfg i = opWord tagSlot 0#8 p ∧ WellFormed cfg i = true := by
  split at h
  · next hp => cases h; exact ⟨congrArg (opWord tagSlot 0#8) hp.symm, rfl⟩
  · split at h
    · next hp => cases h; exact ⟨congrArg (opWord tagSlot 0#8) hp.symm, rfl⟩
    · split at h
      · next hp => cases h; exact ⟨congrArg (opWord tagSlot 0#8) hp.symm, rfl⟩
      · cases h

/-! Whole words. -/

/-- Settles O1: each operation's word is its format's, whose decoder answers the operation; well-formedness enters for the
frame rows, the scan rows and nibble 1111. -/
theorem encodeThenDecodeIsIdentity : Obligations.EncodeThenDecodeIsIdentity := by
  unfold Obligations.EncodeThenDecodeIsIdentity
  intro cfg i hcfg hwf
  obtain ⟨hrel, hextA, hextB, -⟩ := scan_prefixes hcfg
  have hcheck := wellFormed_iff.1 hwf
  have snap {j : JoyId} {s : Snapshot} (hrow : rowSnapshot i = some (j, s)) : decode cfg (encode cfg i) = .ok i := by
    rw [encode_of_rowSnapshot cfg hrow, encodeSnap, decode_snapWord, decodeSnap_of_rowSnapshot hrow hwf]
  cases i with
  | edgeStart v => exact decode_encodeEdge cfg (by decide) v
  | edgeData k v => exact (decode_encodeEdge cfg (by omega) v).trans (decodeEdge_data k v)
  | edgeParity v => exact decode_encodeEdge cfg (by decide) v
  | edgeStop v => exact decode_encodeEdge cfg (by decide) v
  | frameAccept d p =>
    have hvalid : frameValid (mkFrame d p) = true := by
      by_contra hn
      rw [failedInstrCheck, if_neg hn] at hcheck
      cases hcheck
    exact (decode_frameWord cfg _).trans (congrArg _ (decodeFrame_mkFrame hvalid))
  | frameReject w =>
    have hinvalid : ¬frameValid w = true := by
      intro hn
      rw [failedInstrCheck, if_pos hn] at hcheck
      cases hcheck
    exact (decode_frameWord cfg w).trans (congrArg _ (if_neg hinvalid))
  | push b =>
    rw [encode, decode_opWord, decodeParts_push, extractLsb'_setWidth b (by decide),
      decide_eq_true (setWidth_lt b (by decide) (by decide))]
    rfl
  | interpRel => rw [encode, decode_encodeScan, decodeScan, hrel]
  | interpExtA => rw [encode, decode_encodeScan, decodeScan, hextA]; exact congrArg _ (if_neg (extCodeA_ne_extCodeB hcfg))
  | interpExtB => rw [encode, decode_encodeScan, decodeScan, hextB]; exact congrArg _ (if_pos rfl)
  | interpResolve b =>
    have hresolve : isResolve (scan cfg b) = true := by
      by_contra hn
      rw [failedInstrCheck, if_neg hn] at hcheck
      cases hcheck
    exact (decode_encodeScan cfg b).trans (congrArg _ (decodeScan_resolve hresolve))
  | interpUnrecognized b =>
    have hignore : scan cfg b = .ignore := by
      by_contra hn
      rw [failedInstrCheck, if_neg hn] at hcheck
      cases hcheck
    exact (decode_encodeScan cfg b).trans (congrArg _ (decodeScan_ignore hignore))
  | joypollSame j s => exact decode_snapWord cfg j true s
  | joypollNone | joypollNoneInvalidUd | joypollNoneInvalidLr | joypollU | joypollD | joypollL | joypollR | joypollUl
  | joypollUr | joypollDr | joypollDl => exact snap rfl
  | setswitchOn a => exact (decode_encodeSwitch cfg true _).trans (congrArg _ (decodeSwitch_ofBool_append true false a))
  | setswitchOff a => exact (decode_encodeSwitch cfg false _).trans (congrArg _ (decodeSwitch_ofBool_append false false a))
  | setswitchSentinel on a => exact (decode_encodeSwitch cfg on _).trans (congrArg _ (decodeSwitch_ofBool_append on true a))
  | pop | interpEmpty | matrixReset | dispatchJoyL | dispatchJoyR | dispatchInterp | reset =>
    rw [encode, decode_opWord]
    rfl

/-- A field that is clean outside its low bits is the width of its format. -/
theorem setWidth_extractLsb'_of_clean {w k : Nat} {p : BitVec 16} (h : decide (p < BitVec.ofNat 16 k) = true)
    (hk : k = 2 ^ w) (hw : w < 16) : (p.extractLsb' 0 w).setWidth 16 = p := by
  have hlt := of_decide_eq_true h
  rw [BitVec.lt_def, BitVec.toNat_ofNat, hk, Nat.mod_eq_of_lt (Nat.pow_lt_pow_right (by decide) hw)] at hlt
  exact setWidth_extractLsb'_of_lt hlt

/-- The parts of an operation word, format by format: where they decode they are the encoder's. -/
theorem encode_of_decodeParts {cfg : Configuration} (hcfg : cfgWellFormed cfg = true) {n : Nat} {o : BitVec 8}
    {p : BitVec 16} {i : Instr} (hn : n ≤ tagReset) (hbare : n ≠ tagBare)
    (h : decodeParts cfg (BitVec.ofNat 8 n) o p = .ok i) : encode cfg i = opWord n o p ∧ WellFormed cfg i = true := by
  -- a format without bits
  have bare {n : Nat} {i' : Instr} (henc : encode cfg i' = opWord n 0#8 0#16 ∧ WellFormed cfg i' = true)
      (h : strict (o == 0#8 && p == 0#16) (.ok i') = .ok i) :
      encode cfg i = opWord n o p ∧ WellFormed cfg i = true := by
    rw [strict_eq_ok, Bool.and_eq_true, beq_iff_eq, beq_iff_eq] at h
    obtain ⟨⟨rfl, rfl⟩, hi⟩ := h
    cases hi
    exact henc
  obtain rfl | rfl | rfl | rfl | rfl | rfl | rfl | rfl | rfl | rfl | rfl : n = tagPos ∨ n = tagFrame ∨ n = tagPush ∨
      n = tagPop ∨ n = tagEmpty ∨ n = tagScan ∨ n = tagSnap ∨ n = tagSwitch ∨ n = tagSlot ∨ n = tagMatrix ∨
      n = tagReset := by
    simp only [tagBare, tagPos, tagFrame, tagPush, tagPop, tagEmpty, tagScan, tagSnap, tagSwitch, tagSlot, tagMatrix,
      tagReset] at *
    omega
  · -- SEL-POS
    rw [decodeParts_pos, strict_eq_ok, Bool.and_eq_true] at h
    obtain ⟨⟨-, ho⟩, hi⟩ := h
    have hedge := encode_of_decodeEdge cfg hi
    rwa [encodeEdge, ofBool_of_lt_two o (of_decide_eq_true ho), BitVec.ofNat_toNat, BitVec.setWidth_eq] at hedge
  · -- F-FRAME
    rw [decodeParts_frame, strict_eq_ok, Bool.and_eq_true, beq_iff_eq] at h
    obtain ⟨⟨hp, rfl⟩, hi⟩ := h
    cases hi
    have hframe := encode_decodeFrame cfg (p.extractLsb' 0 11)
    rwa [setWidth_extractLsb'_of_clean hp rfl (by decide)] at hframe
  · -- PUSH
    rw [decodeParts_push, strict_eq_ok, Bool.and_eq_true, beq_iff_eq] at h
    obtain ⟨⟨hp, rfl⟩, hi⟩ := h
    cases hi
    exact ⟨congrArg (opWord tagPush 0#8) (setWidth_extractLsb'_of_clean (w := 8) hp rfl (by decide)), rfl⟩
  · -- POP
    rw [decodeParts_pop] at h
    exact bare ⟨rfl, rfl⟩ h
  · -- INTERP_EMPTY
    rw [decodeParts_empty] at h
    exact bare ⟨rfl, rfl⟩ h
  · -- F-SCAN
    rw [decodeParts_scan, strict_eq_ok, Bool.and_eq_true, beq_iff_eq] at h
    obtain ⟨⟨hp, rfl⟩, hi⟩ := h
    cases hi
    have hscan := encode_decodeScan hcfg (p.extractLsb' 0 8)
    rwa [encodeScan, setWidth_extractLsb'_of_clean hp rfl (by decide)] at hscan
  · -- F-SNAP
    rw [decodeParts_snap, strict_eq_ok, Bool.and_eq_true] at h
    obtain ⟨⟨hp, ho⟩, hi⟩ := h
    cases hi
    refine ⟨?_, wellFormed_decodeSnap ..⟩
    rw [encode_decodeSnap, snapOperands_of_lt_four o (of_decide_eq_true ho),
      setWidth_extractLsb'_of_clean hp rfl (by decide)]
  · -- F-SWADDR
    rw [decodeParts_switch, strict_eq_ok, Bool.and_eq_true] at h
    obtain ⟨⟨hp, ho⟩, hi⟩ := h
    cases hi
    have hswitch := encode_decodeSwitch cfg (o.getLsbD 0) (p.extractLsb' 0 8)
    rwa [encodeSwitch, ofBool_of_lt_two o (of_decide_eq_true ho), setWidth_extractLsb'_of_clean hp rfl (by decide)]
      at hswitch
  · -- SEL-SLOT
    rw [decodeParts_slot, strict_eq_ok, beq_iff_eq] at h
    obtain ⟨rfl, hi⟩ := h
    exact encode_decodeSlot cfg hi
  · -- MATRIX_RESET
    rw [decodeParts_matrix] at h
    exact bare ⟨rfl, rfl⟩ h
  · -- RESET
    rw [decodeParts_reset] at h
    exact bare ⟨rfl, rfl⟩ h

/-- Settles O2: the word is put together from its parts, and each format's part is its encoder's. -/
theorem decodeThenEncodeIsIdentity : Obligations.DecodeThenEncodeIsIdentity := by
  unfold Obligations.DecodeThenEncodeIsIdentity
  intro cfg w i hcfg hdecode htag
  obtain ⟨n, hn, hw⟩ := tag_of_decodeParts hdecode
  have hbare : n ≠ tagBare := fun heq => htag (heq ▸ hw)
  rw [decode, hw] at hdecode
  have hparts := encode_of_decodeParts hcfg hn hbare hdecode
  rwa [opWord_of_parts hw] at hparts

end Sys2Proof

/-! ### Frame words, written-out words and the remap (spec/30 R59 to R68, spec/40 R81, R82) -/

namespace Sys2Proof

open Machine

/-- The nine counted samples are the data byte and the parity sample (R59). -/
theorem popcount_samples (w : FrameWord) :
    popcount (w.extractLsb' 1 9) = popcount (frameData w) + (frameParity w).toNat := by
  have hlast : List.range 9 = List.range 8 ++ [8] := rfl
  have hdata : (List.range 8).countP (fun i => (w.extractLsb' 1 9).getLsbD i) = popcount (frameData w) := by
    refine List.countP_congr fun i hi => ?_
    have hi8 : i < 8 := List.mem_range.1 hi
    simp only [frameData, BitVec.getLsbD_extractLsb', hi8, show i < 9 by omega]
  have hparity : (w.extractLsb' 1 9).getLsbD 8 = frameParity w := by
    rw [BitVec.getLsbD_extractLsb']
    rfl
  rw [popcount, hlast, List.countP_append, hdata, List.countP_singleton, hparity]
  cases frameParity w <;> rfl

theorem frameOdd_eq (w : FrameWord) :
    frameOdd w = ((popcount (frameData w) + (frameParity w).toNat) % 2 == 1) := by
  rw [frameOdd, popcount_samples]

theorem frameValid_frameOfByte (b : Byte) : frameValid (frameOfByte b) = true := by
  have hodd : frameOdd (frameOfByte b) = true := by
    rw [frameOdd_eq, frameOfByte, frameData_mkFrame, frameParity_mkFrame]
    rcases Nat.mod_two_eq_zero_or_one (popcount b) with h | h <;> simp [h, Nat.add_mod]
  rw [frameValid, hodd, frameOfByte, frameStart_mkFrame, frameStop, mkFrame_getLsbD]
  rfl

/-- A valid frame word is the one of its byte: oddness determines the parity sample (R68). -/
theorem eq_frameOfByte_of_valid {w : FrameWord} (h : frameValid w = true) : w = frameOfByte (frameData w) := by
  have hparity : frameParity w = (popcount (frameData w) % 2 == 0) := by
    rw [frameValid, Bool.and_eq_true, frameOdd_eq, beq_iff_eq] at h
    rcases Nat.mod_two_eq_zero_or_one (popcount (frameData w)) with hd | hd <;>
      cases hp : frameParity w <;> simp_all [Nat.add_mod]
  rw [frameOfByte, ← hparity, mkFrame_of_valid h]

/-- Settles O3: oddness determines the parity sample of a valid frame word from its data byte. -/
theorem validFramesAreOnePerByte : Obligations.ValidFramesAreOnePerByte := by
  unfold Obligations.ValidFramesAreOnePerByte
  exact ⟨fun b => ⟨frameValid_frameOfByte b, frameData_mkFrame b _⟩, fun w => eq_frameOfByte_of_valid⟩

/-- Settles O4: the decoder computes each of the written-out words. -/
theorem sampleWordsDecode : Obligations.SampleWordsDecode := by
  unfold Obligations.SampleWordsDecode
  decide

/-- Settles O6: the remap's sixteen values, one by one. -/
theorem remapIsAPermutation : Obligations.RemapIsAPermutation := by
  unfold Obligations.RemapIsAPermutation
  constructor
  case left => decide -- the two inverses and the fourth power
  case right => decide -- the remap applied twice

end Sys2Proof

/-! ### The step (spec/20, spec/30, spec/60): what the schedule selects, and how a run stops -/

namespace Sys2Proof

open Machine

theorem step_faulted {s : State} {r : Fault} (h : s.fault = some r) : step s = .fault r := by
  simp only [step, runNext, h]

theorem step_refused {s : State} (hf : s.fault = none) (h : s.refused = true) : step s = .refused .marked := by
  simp only [step, runNext, hf, h, if_true]

theorem step_of_failedCheck {s : State} {c : ConfigCheck} (hf : s.fault = none) (hr : s.refused = false)
    (h : failedCheck s.cfg = some c) : step s = .refused (.configuration c) := by
  simp [step, runNext, hf, hr, h]

theorem step_of_running {s : State} (h : s.Running) : step s = runSchedule s := by
  obtain ⟨hf, hr, hwf⟩ := h
  simp [step, runNext, hf, hr, failedCheck_none.2 hwf]

theorem runSchedule_nil {s : State} (h : s.sched = []) : runSchedule s = takePoll s := by
  simp only [runSchedule, h]

theorem step_cons {s : State} {it : Item} {rest : List Item} (h : s.Running) (hs : s.sched = it :: rest) :
    step s = takeItem it { s with sched := rest } := by
  rw [step_of_running h, runSchedule, hs]

/-- A POLL item, and an empty schedule, are a DISPATCH step of the current slot's component (R151). -/
theorem step_poll {s : State} {rest : List Item} (h : s.Running) (hs : s.sched = .poll :: rest ∨ (s.sched = [] ∧ rest = [])) :
    step s = exec (decodeSlot s.component) { s with sched := rest } := by
  rcases hs with hs | ⟨hs, rfl⟩
  · rw [step_cons h hs]
    rfl
  · have hsame : { s with sched := [] } = s := by rw [← hs]
    rw [step_of_running h, runSchedule_nil hs, hsame]
    rfl

/-- A clock edge is the EDGE step of the bit position, once the interrupt is enabled (R103, R161). -/
theorem step_edge {s : State} {v : Bit} {rest : List Item} (h : s.Running) (hirq : s.irqEn = true)
    (hs : s.sched = .edge v :: rest) :
    step s = runDecoded (decodeEdge s.dec.pos.toNat v) { s with sched := rest } := by
  rw [step_cons h hs]
  exact if_pos hirq

theorem step_edge_eq_exec {s : State} {v : Bit} {rest : List Item} {i : Instr} (h : s.Running) (hirq : s.irqEn = true)
    (hs : s.sched = .edge v :: rest) (hi : decodeEdge s.dec.pos.toNat v = .ok i) :
    step s = exec i { s with sched := rest } := by
  rw [step_edge h hirq hs, hi]
  rfl

/-- Settles O48: the position selects the row, which is R71a's table read by `decodeEdge`. -/
theorem stepRunsTheEdgeThePositionSelects : Obligations.StepRunsTheEdgeThePositionSelects := by
  unfold Obligations.StepRunsTheEdgeThePositionSelects
  intro s v rest hrun hirq hs
  refine ⟨fun hp => ?start, fun k hp => ?data, fun hp => ?parity, fun hp => ?stop⟩
  all_goals refine step_edge_eq_exec hrun hirq hs ?_
  case data => rw [hp, decodeEdge_data]
  all_goals
    rw [hp]
    rfl

/-- Settles O49: each component has one DISPATCH row. -/
theorem stepRunsTheSlotsComponent : Obligations.StepRunsTheSlotsComponent := by
  unfold Obligations.StepRunsTheSlotsComponent
  intro s rest hrun hs
  have row {c : Slot} (hc : s.component = c) : step s = exec (decodeSlot c) { s with sched := rest } :=
    hc ▸ step_poll hrun hs
  exact ⟨row, row, row⟩

/-- Settles O50: the word item runs what its bits decode to. -/
theorem stepRunsTheDecodedOperation : Obligations.StepRunsTheDecodedOperation := by
  unfold Obligations.StepRunsTheDecodedOperation
  intro s w i rest hrun hs hdecode
  rw [step_cons hrun hs]
  exact congrArg (runDecoded · _) hdecode

/-- Settles O51: each item of the schedule, with the interrupt and EDGE_LOSS as the two choices. -/
theorem stepTakesTheEnvironmentsEvents : Obligations.StepTakesTheEnvironmentsEvents := by
  unfold Obligations.StepTakesTheEnvironmentsEvents
  intro s rest hrun
  refine ⟨fun j raw hs => ?joy, fun v hs hirq => ?unseen, fun v hs hloss => ?lost, fun v hs hloss => ?taken, fun hs => ?reset⟩
  all_goals rw [step_cons hrun hs]
  case joy => rfl
  case unseen => exact if_neg (by simp [hirq])
  case lost => exact if_pos hloss
  case taken =>
    have hedge : step { s with sched := .edge v :: rest } = takeItem (.edge v) { s with sched := rest } :=
      step_cons (s := { s with sched := .edge v :: rest }) hrun rfl
    exact (if_neg (by simp [hloss])).trans hedge.symm
  case reset => rfl

/-! Stopped runs. -/

/-- A marked state is never quiescent (R158, R159). -/
theorem not_quiescent_of_fault {s : State} {r : Fault} (h : s.fault = some r) : ¬s.Quiescent := by
  rintro ⟨-, -, -, -, -, hf, -⟩
  rw [h] at hf
  cases hf

theorem not_quiescent_of_refused {s : State} (h : s.refused = true) : ¬s.Quiescent := by
  rintro ⟨-, -, -, -, -, -, hr⟩
  rw [h] at hr
  cases hr

theorem settle_faulted {s : State} {r : Fault} (h : s.fault = some r) : settle s (step s) = s := by
  rw [step_faulted h, settle, ← h]

/-- Settles O53: `settle` sets the mark that the step then answers. -/
theorem stoppedStateStaysStopped : Obligations.StoppedStateStaysStopped := by
  unfold Obligations.StoppedStateStaysStopped
  refine ⟨fun s r hf hr hstep => ?fault, fun s r hf => ?faulted, fun s hf hr => ?refused⟩
  case fault =>
    have hmark : (settle s (step s)).fault = some r := by rw [hstep]; rfl
    exact ⟨hmark, step_faulted hmark, not_quiescent_of_fault hmark⟩
  case faulted => exact ⟨step_faulted hf, settle_faulted hf, not_quiescent_of_fault hf⟩
  case refused =>
    refine ⟨step_refused hf hr, ?_, not_quiescent_of_refused hr⟩
    rw [step_refused hf hr]
    rfl

/-- RESET refuses a configuration under the first check it fails (R159). -/
theorem boot_of_failedCheck {s : State} {c : ConfigCheck} (h : failedCheck s.cfg = some c) :
    boot s = .refused (.configuration c) := by
  rw [boot, h]

/-- Settles O47: RESET and the step look at the checks before anything else. -/
theorem illFormedConfigurationHasNoRun : Obligations.IllFormedConfigurationHasNoRun := by
  unfold Obligations.IllFormedConfigurationHasNoRun
  intro s c hfail
  refine ⟨boot_of_failedCheck hfail, fun hf hr => ?_⟩
  have hstep := step_of_failedCheck hf hr hfail
  exact ⟨hstep, by rw [hstep]; rfl⟩

/-! Placed rows. -/

/-- The bare bits of a row mean the same under every configuration (log 2). -/
theorem decode_of_bare {w : BitVec 32} (h : w.extractLsb' 24 8 = BitVec.ofNat 8 tagBare) (cfg cfg' : Configuration) :
    decode cfg w = decode cfg' w := by
  rw [decode, decode, h]
  rfl

/-- A table row that decodes is an operation word that decodes to the same operation. -/
theorem decode_of_decodeTableWord {nbits w : Nat} {i : Instr} (hn : nbits ≤ 16) (h : decodeTableWord nbits w = some i)
    (cfg : Configuration) : decode cfg (BitVec.ofNat 32 (w % 2 ^ nbits)) = .ok i := by
  have hlt : w % 2 ^ nbits < 2 ^ 16 :=
    (Nat.mod_lt w (Nat.two_pow_pos nbits)).trans_le (Nat.pow_le_pow_right (by decide) hn)
  have hbare : (BitVec.ofNat 32 (w % 2 ^ nbits)).extractLsb' 24 8 = BitVec.ofNat 8 tagBare := by
    refine BitVec.eq_of_toNat_eq ?_
    rw [BitVec.extractLsb'_toNat, BitVec.toNat_ofNat, Nat.mod_eq_of_lt (hlt.trans (by decide)),
      Nat.shiftRight_eq_div_pow, Nat.div_eq_of_lt (hlt.trans (by decide))]
    rfl
  rw [decode_of_bare hbare cfg excfg]
  unfold decodeTableWord at h
  simp only at h
  split at h
  case isTrue => cases h -- no row is that long
  case isFalse =>
    split at h
    case h_1 hok => cases h; exact hok
    case h_2 => cases h

/-- The selector of an operation is set in the decoder, the buffer's head, the previous snapshots and the slot, whatever the
schedule. -/
theorem makeSelected_frame (i : Instr) (s : State) (l : List Item) :
    makeSelected i { s with sched := l } =
      { s with
        dec := (makeSelected i s).dec, buf := (makeSelected i s).buf, joyPrev := (makeSelected i s).joyPrev
        slot := (makeSelected i s).slot, sched := l } := by
  cases i with
  | joypollNone | joypollNoneInvalidUd | joypollNoneInvalidLr | joypollU | joypollD | joypollL | joypollR | joypollUl
  | joypollUr | joypollDr | joypollDl =>
    simp only [makeSelected]
    split <;> rfl
  | _ => rfl

theorem makeSelected_self (i : Instr) (s : State) :
    makeSelected i s =
      { s with
        dec := (makeSelected i s).dec, buf := (makeSelected i s).buf, joyPrev := (makeSelected i s).joyPrev
        slot := (makeSelected i s).slot } := makeSelected_frame i s s.sched

/-- Settles O52: the placed word is the next item, and setting the selector touches nothing the step looks at first. -/
theorem placedRowRunsNext : Obligations.PlacedRowRunsNext := by
  unfold Obligations.PlacedRowRunsNext
  intro s nbits w i hn hrun hrow
  have hdecode := decode_of_decodeTableWord hn hrow s.cfg
  have hplaced : s.withFetchWord nbits w =
      { makeSelected i s with sched := .word (BitVec.ofNat 32 (w % 2 ^ nbits)) :: s.sched } := by
    rw [State.withFetchWord, placeWord, hdecode, makeSelected_self]
    exact makeSelected_frame i s _
  have hselected : { makeSelected i s with sched := s.sched } = makeSelected i s := by
    rw [makeSelected_self]
  rw [hplaced, ← hselected]
  refine stepRunsTheDecodedOperation _ _ i s.sched ?_ rfl ?_
  all_goals rw [makeSelected_self]
  · exact hrun
  · exact hdecode

end Sys2Proof

/-! ### The serial bit decoder (spec/42, R103 to R114): single samples, the end of a frame, and runs of eleven edges -/

namespace Sys2Proof

open Machine

theorem exec_edgeStart (v : Bit) (s : State) : exec (.edgeStart v) s =
    whenSelected (s.dec.pos == 1#4) "EDGE_START" (.next { s with dec := { s.dec with start := v, pos := 2#4 } }) := rfl

theorem exec_edgeData (k : Fin 8) (v : Bit) (s : State) : exec (.edgeData k v) s =
    whenSelected (s.dec.pos.toNat == k.val + 2) "EDGE_DATA" (.next { s with dec := { s.dec with
      data := setBit s.dec.data k.val v, par := countSample s.dec.par v, pos := s.dec.pos + 1#4 } }) := rfl

theorem exec_edgeParity (v : Bit) (s : State) : exec (.edgeParity v) s =
    whenSelected (s.dec.pos == 10#4) "EDGE_PARITY"
      (.next { s with dec := { s.dec with par := countSample s.dec.par v, pos := 11#4 } }) := rfl

theorem exec_edgeStop (v : Bit) (s : State) :
    exec (.edgeStop v) s = whenSelected (s.dec.pos == 11#4) "EDGE_STOP" (endFrame v s) := rfl

theorem exec_frameAccept (d : Byte) (p : Bit) (s : State) : exec (.frameAccept d p) s =
    whenSelected (frameValid (mkFrame d p) && s.dec.holds (mkFrame d p)) "FRAME_ACCEPT"
      (mapNext frameReset (bufPush d s)) := rfl

theorem exec_frameReject (w : FrameWord) (s : State) : exec (.frameReject w) s =
    whenSelected (!frameValid w && s.dec.holds w) "FRAME_REJECT"
      (.next (frameReset (s.emit (.framing (frameStart w) (frameStop w) (frameOdd w) (frameData w))))) := rfl

theorem countSample_eq (par : BitVec 4) (v : Bit) : countSample par v = par + if v = true then 1#4 else 0#4 := by
  cases v
  · exact (BitVec.add_zero par).symm
  · rfl

theorem setBit_getLsbD (x : Byte) {k : Nat} (hk : k < 8) (v : Bit) (i : Nat) :
    (setBit x k v).getLsbD i = if i = k then v else x.getLsbD i := by
  have hone : (1#8 <<< k).getLsbD i = decide (i = k) := by
    rw [BitVec.getLsbD_shiftLeft, BitVec.getLsbD_one]
    by_cases h : i = k
    · simp [h, hk]
    · simp [h]
      omega
  rw [setBit]
  cases v with
  | true =>
    rw [if_pos rfl, BitVec.getLsbD_or, hone]
    by_cases h : i = k <;> simp [h]
  | false =>
    rw [if_neg Bool.false_ne_true, BitVec.getLsbD_and, BitVec.getLsbD_not, hone]
    by_cases h : i = k
    · simp [h]
    · simpa [h] using fun hi => BitVec.lt_of_getLsbD hi

theorem toNat_add_one {p : BitVec 4} (h : p.toNat < 15) : (p + 1#4).toNat = p.toNat + 1 := by
  rw [BitVec.toNat_add]
  exact Nat.mod_eq_of_lt (by simpa using Nat.succ_lt_succ h)

/-- Settles O9: one bit of the data byte is set, the count and the position move. -/
theorem edgeDataWritesOneBit : Obligations.EdgeDataWritesOneBit := by
  unfold Obligations.EdgeDataWritesOneBit
  intro k v s hpos
  refine ⟨_, by rw [exec_edgeData, beq_iff_eq.2 hpos, whenSelected_true], ?bit, fun i _ hi => ?others, ?count, ?pos, rfl⟩
  case bit => exact (setBit_getLsbD _ k.isLt v k.val).trans (if_pos rfl)
  case others => exact (setBit_getLsbD _ k.isLt v i).trans (if_neg hi)
  case count => exact countSample_eq _ v
  case pos => exact toNat_add_one (by omega)

/-- Settles O10: position 10 is the selector of EDGE_PARITY. -/
theorem edgeParityCountsTheSample : Obligations.EdgeParityCountsTheSample := by
  unfold Obligations.EdgeParityCountsTheSample
  intro v s hpos
  rw [exec_edgeParity, beq_iff_eq.2 hpos, whenSelected_true, countSample_eq]

/-! The end of a frame. -/

/-- An accepted frame pushes its data byte: the stop bit stored on the way is cleared again (R107, R109). -/
theorem endFrame_of_accepts {v : Bit} {s : State} (h : Decoder.accepts { s.dec with stop := v } = true) :
    endFrame v s = mapNext frameReset (bufPush s.dec.data s) := by
  rw [endFrame]
  simp only [h, if_true, bufPush_dec]
  cases bufPush s.dec.data s <;> rfl

/-- A rejected frame is logged and reset (R108, R109). -/
theorem endFrame_of_rejects {v : Bit} {s : State} (h : Decoder.accepts { s.dec with stop := v } = false) :
    endFrame v s = .next (frameReset (s.emit (Decoder.framingEvent { s.dec with stop := v }))) := by
  rw [endFrame]
  simp only [h, Bool.false_eq_true, if_false]
  rfl

theorem parityOdd_eq (par : BitVec 4) : parityOdd par = decide (par.toNat % 2 = 1) := by
  rw [parityOdd, BitVec.getLsbD, Nat.testBit_zero]

theorem accepts_iff {d : Decoder} :
    d.accepts = true ↔ d.par.toNat % 2 = 1 ∧ d.start = false ∧ d.stop = true := by
  rw [Decoder.accepts, parityOdd_eq, Bool.and_eq_true, Bool.and_eq_true, decide_eq_true_iff, Bool.not_eq_true', and_assoc]

/-- Settles O11: the acceptance condition is the one of `accepts_iff`, and both ends of the frame are one equation each. -/
theorem edgeStopEndsTheFrame : Obligations.EdgeStopEndsTheFrame := by
  unfold Obligations.EdgeStopEndsTheFrame
  intro v s hpos hlt
  have hexec : exec (.edgeStop v) s = endFrame v s := by rw [exec_edgeStop, beq_iff_eq.2 hpos, whenSelected_true]
  rw [hexec]
  constructor
  case left =>
    intro haccept
    obtain ⟨p, hpush⟩ : ∃ p, bufPush s.dec.data s = .next p := ⟨_, bufPush_eq _ s hlt⟩
    refine ⟨p, hpush, ?_⟩
    rw [endFrame_of_accepts (accepts_iff.2 haccept), hpush]
    rfl
  case right =>
    intro hreject
    have hfalse := Bool.eq_false_iff.2 (mt (accepts_iff (d := { s.dec with stop := v })).1 hreject)
    rw [endFrame_of_rejects hfalse, Decoder.framingEvent, parityOdd_eq]
    rfl

/-- What a decoder that holds a frame word knows of it (R104 to R106). -/
theorem holds_iff {d : Decoder} {w : FrameWord} : d.holds w = true ↔
    d.pos = 11#4 ∧ d.start = frameStart w ∧ d.data = frameData w ∧ parityOdd d.par = frameOdd w := by
  simp only [Decoder.holds, Bool.and_eq_true, beq_iff_eq, and_assoc]

/-- A decoder that holds a frame word accepts it exactly when it is valid (R59, R107). -/
theorem accepts_of_holds {d : Decoder} {w : FrameWord} (h : d.holds w = true) :
    Decoder.accepts { d with stop := frameStop w } = frameValid w := by
  obtain ⟨-, hstart, -, hodd⟩ := holds_iff.1 h
  rw [Decoder.accepts, frameValid, hstart, hodd]
  cases frameOdd w <;> cases frameStart w <;> cases frameStop w <;> rfl

/-- EDGE_STOP at the end of a valid frame word (R107). -/
theorem edgeStop_of_valid {w : FrameWord} {s : State} (h : s.dec.holds w = true) (hvalid : frameValid w = true) :
    exec (.edgeStop (frameStop w)) s = mapNext frameReset (bufPush (frameData w) s) := by
  obtain ⟨hpos, -, hdata, -⟩ := holds_iff.1 h
  rw [exec_edgeStop, beq_iff_eq.2 hpos, whenSelected_true, endFrame_of_accepts ((accepts_of_holds h).trans hvalid), hdata]

/-- EDGE_STOP at the end of an invalid frame word (R108). -/
theorem edgeStop_of_invalid {w : FrameWord} {s : State} (h : s.dec.holds w = true) (hinvalid : frameValid w = false) :
    exec (.edgeStop (frameStop w)) s =
      .next (frameReset (s.emit (.framing (frameStart w) (frameStop w) (frameOdd w) (frameData w)))) := by
  obtain ⟨hpos, hstart, hdata, hodd⟩ := holds_iff.1 h
  rw [exec_edgeStop, beq_iff_eq.2 hpos, whenSelected_true, endFrame_of_rejects ((accepts_of_holds h).trans hinvalid),
    Decoder.framingEvent, hstart, hdata, hodd]

theorem frameAccept_of_valid {w : FrameWord} {s : State} (h : s.dec.holds w = true) (hvalid : frameValid w = true) :
    exec (.frameAccept (frameData w) (frameParity w)) s = mapNext frameReset (bufPush (frameData w) s) := by
  rw [exec_frameAccept, mkFrame_of_valid hvalid, hvalid, h, Bool.and_self, whenSelected_true]

theorem frameReject_of_invalid {w : FrameWord} {s : State} (h : s.dec.holds w = true) (hinvalid : frameValid w = false) :
    exec (.frameReject w) s =
      .next (frameReset (s.emit (.framing (frameStart w) (frameStop w) (frameOdd w) (frameData w)))) := by
  rw [exec_frameReject, hinvalid, h, Bool.not_false, Bool.and_self, whenSelected_true]

/-- Settles O12: for a valid and for an invalid word EDGE_STOP and the word's own row have one right-hand side. -/
theorem frameRowsAreTheOutcomesOfEdgeStop : Obligations.FrameRowsAreTheOutcomesOfEdgeStop := by
  unfold Obligations.FrameRowsAreTheOutcomesOfEdgeStop
  intro w s hholds hlt
  refine ⟨?same, fun hvalid => ?accept, fun hinvalid => frameReject_of_invalid hholds hinvalid⟩
  case same =>
    rw [decodeFrame]
    split
    case isTrue hvalid => rw [edgeStop_of_valid hholds hvalid, frameAccept_of_valid hholds hvalid]
    case isFalse hvalid =>
      have hinvalid := Bool.eq_false_iff.2 hvalid
      rw [edgeStop_of_invalid hholds hinvalid, frameReject_of_invalid hholds hinvalid]
  case accept =>
    obtain ⟨p, hpush⟩ : ∃ p, bufPush (frameData w) s = .next p := ⟨_, bufPush_eq _ s hlt⟩
    refine ⟨p, hpush, ?_⟩
    rw [frameAccept_of_valid hholds hvalid, hpush]
    rfl

/-! Samples before position 11. -/

/-- The decoder after a sample at a position before 11 (R104 to R106). -/
def sampled (d : Decoder) (v : Bit) : Decoder :=
  if d.pos = 1#4 then { d with start := v, pos := 2#4 }
  else if d.pos = 10#4 then { d with par := countSample d.par v, pos := 11#4 }
  else { d with data := setBit d.data (d.pos.toNat - 2) v, par := countSample d.par v, pos := d.pos + 1#4 }

theorem sampled_first {d : Decoder} (v : Bit) (h : d.pos.toNat = 1) : sampled d v = { d with start := v, pos := 2#4 } :=
  if_pos (BitVec.eq_of_toNat_eq h)

theorem sampled_parity {d : Decoder} (v : Bit) (h : d.pos.toNat = 10) :
    sampled d v = { d with par := countSample d.par v, pos := 11#4 } := by
  have hpos : d.pos = 10#4 := BitVec.eq_of_toNat_eq h
  rw [sampled, if_neg (by rw [hpos]; decide), if_pos hpos]

theorem sampled_data {d : Decoder} (v : Bit) (hlo : 2 ≤ d.pos.toNat) (hhi : d.pos.toNat ≤ 9) :
    sampled d v = { d with
      data := setBit d.data (d.pos.toNat - 2) v, par := countSample d.par v, pos := d.pos + 1#4 } := by
  have hne {p : BitVec 4} (hp : d.pos.toNat ≠ p.toNat) : ¬d.pos = p := fun h => hp (congrArg BitVec.toNat h)
  rw [sampled, if_neg (hne (p := 1#4) (by simp; omega)), if_neg (hne (p := 10#4) (by simp; omega))]

/-- The kinds of position before 11 (R103). -/
theorem early_cases {n : Nat} (hlo : 1 ≤ n) (hhi : n ≤ 10) : n = 1 ∨ n = 10 ∨ (2 ≤ n ∧ n ≤ 9) := by omega

/-- The EDGE row of a position before 11 leaves the sampled decoder. -/
theorem exec_earlyEdge {s : State} (v : Bit) (hlo : 1 ≤ s.dec.pos.toNat) (hhi : s.dec.pos.toNat ≤ 10) :
    ∃ i, decodeEdge s.dec.pos.toNat v = .ok i ∧ isEarlyEdge i = true ∧
      exec i s = .next { s with dec := sampled s.dec v } := by
  rcases early_cases hlo hhi with h1 | h10 | ⟨h2, h9⟩
  · refine ⟨.edgeStart v, by rw [h1]; rfl, rfl, ?_⟩
    rw [exec_edgeStart, beq_iff_eq.2 (BitVec.eq_of_toNat_eq h1), whenSelected_true, sampled_first v h1]
  · refine ⟨.edgeParity v, by rw [h10]; rfl, rfl, ?_⟩
    rw [exec_edgeParity, beq_iff_eq.2 (BitVec.eq_of_toNat_eq h10), whenSelected_true, sampled_parity v h10]
  · have hk : s.dec.pos.toNat = (⟨s.dec.pos.toNat - 2, by omega⟩ : Fin 8).val + 2 := (Nat.sub_add_cancel h2).symm
    refine ⟨_, (congrArg (decodeEdge · v) hk).trans (decodeEdge_data _ v), rfl, ?_⟩
    rw [exec_edgeData, beq_iff_eq.2 hk, whenSelected_true, sampled_data v h2 h9]

theorem sampled_pos {d : Decoder} (v : Bit) (hhi : d.pos.toNat ≤ 10) : (sampled d v).pos.toNat = d.pos.toNat + 1 := by
  unfold sampled
  split
  · next h => rw [h]; rfl
  · split
    · next h => rw [h]; rfl
    · exact toNat_add_one (by omega)

/-- Only the first sample is stored as the start bit. -/
theorem sampled_start {d : Decoder} (v : Bit) (h : d.pos ≠ 1#4) : (sampled d v).start = d.start := by
  rw [sampled, if_neg h]
  split <;> rfl

theorem step_earlyEdge {s : State} {v : Bit} {rest : List Item} (hrun : s.Running) (hirq : s.irqEn = true)
    (hs : s.sched = .edge v :: rest) (hlo : 1 ≤ s.dec.pos.toNat) (hhi : s.dec.pos.toNat ≤ 10) :
    step s = .next { s with dec := sampled s.dec v, sched := rest } := by
  obtain ⟨i, hi, -, hexec⟩ := exec_earlyEdge (s := { s with sched := rest }) v hlo hhi
  rw [step_edge_eq_exec hrun hirq hs hi, hexec]

/-- Settles O14: before position 11 a sample is a function of the decoder. -/
theorem frameIsCheckedOnlyAtItsEnd : Obligations.FrameIsCheckedOnlyAtItsEnd := by
  unfold Obligations.FrameIsCheckedOnlyAtItsEnd
  intro s v rest hrun hirq hs hlo hhi
  exact ⟨_, step_earlyEdge hrun hirq hs hlo hhi, sampled_pos v hhi, rfl⟩

end Sys2Proof

/-! ### Whole frames (spec/42 section 3, R113, R114): runs of eleven edges -/

namespace Sys2Proof

open Machine

theorem coreRun_succ (M : Host.Core) {s t : M.State} (h : M.step s = .next t) (k : Nat) :
    M.run (k + 1) s = M.run k t := by
  rw [Host.Core.run, h]

theorem run_succ {s t : State} (h : step s = .next t) (k : Nat) : core.run (k + 1) s = core.run k t :=
  coreRun_succ core h k

/-- The decoder after samples that all come before position 11. -/
def sampledAll (d : Decoder) (vs : List Bit) : Decoder := vs.foldl sampled d

theorem sampledAll_pos {d : Decoder} {vs : List Bit} (hhi : d.pos.toNat + vs.length ≤ 11) :
    (sampledAll d vs).pos.toNat = d.pos.toNat + vs.length := by
  induction vs generalizing d with
  | nil => rfl
  | cons v rest ih =>
    rw [List.length_cons] at hhi ⊢
    have hpos := sampled_pos v (d := d) (by omega)
    exact (ih (by omega)).trans (by omega)

/-- After position 1 the start bit stays. -/
theorem sampledAll_start {d : Decoder} {vs : List Bit} (hlo : 2 ≤ d.pos.toNat) (hhi : d.pos.toNat + vs.length ≤ 11) :
    (sampledAll d vs).start = d.start := by
  induction vs generalizing d with
  | nil => rfl
  | cons v rest ih =>
    rw [List.length_cons] at hhi
    have hpos := sampled_pos v (d := d) (by omega)
    have hne : d.pos ≠ 1#4 := by
      intro h
      rw [h] at hlo
      exact absurd hlo (by decide)
    exact (ih (by omega) (by omega)).trans (sampled_start v hne)

/-- Edges before position 11 change the decoder only. -/
theorem run_earlyEdges {s : State} {vs : List Bit} {rest : List Item} (hrun : s.Running) (hirq : s.irqEn = true)
    (hs : s.sched = vs.map .edge ++ rest) (hlo : 1 ≤ s.dec.pos.toNat) (hhi : s.dec.pos.toNat + vs.length ≤ 11) (k : Nat) :
    core.run (vs.length + k) s = core.run k { s with dec := sampledAll s.dec vs, sched := rest } := by
  induction vs generalizing s with
  | nil =>
    change _ = rest at hs
    rw [← hs, List.length_nil, Nat.zero_add]
    rfl
  | cons v vs ih =>
    rw [List.length_cons] at hhi
    have hpos := sampled_pos v (d := s.dec) (by omega)
    rw [List.length_cons, Nat.add_right_comm, run_succ (step_earlyEdge hrun hirq hs hlo (by omega))]
    refine ih hrun hirq rfl ?_ ?_
    all_goals
      simp only [hpos]
      omega

/-- The edge at position 11 is EDGE_STOP. -/
theorem step_lastEdge {s : State} {v : Bit} {rest : List Item} (hrun : s.Running) (hirq : s.irqEn = true)
    (hs : s.sched = .edge v :: rest) (hpos : s.dec.pos = 11#4) : step s = exec (.edgeStop v) { s with sched := rest } :=
  step_edge_eq_exec hrun hirq hs (by rw [hpos]; rfl)

/-! The samples of a frame word as the decoder collects them. -/

/-- The number of ones among the samples `W[n-1:1]`. -/
def onesBefore (w : FrameWord) (n : Nat) : Nat := (List.range (n - 1)).countP fun i => w.getLsbD (i + 1)

/-- The decoder has taken the samples `W[n-1:0]`, from position 1 with no data bit set and a zero count. -/
structure HoldsPrefix (d : Decoder) (w : FrameWord) (n : Nat) : Prop where
  pos : d.pos.toNat = n + 1
  start : 1 ≤ n → d.start = frameStart w
  data : ∀ i < 8, d.data.getLsbD i = (decide (i + 1 < n) && w.getLsbD (i + 1))
  par : d.par = BitVec.ofNat 4 (onesBefore w n)

theorem onesBefore_succ (w : FrameWord) {n : Nat} (h : 1 ≤ n) :
    onesBefore w (n + 1) = onesBefore w n + (w.getLsbD n).toNat := by
  obtain ⟨m, rfl⟩ := Nat.exists_eq_add_of_le' h
  rw [onesBefore, onesBefore, Nat.add_sub_cancel, Nat.add_sub_cancel, List.range_succ, List.countP_append,
    List.countP_singleton]
  cases w.getLsbD (m + 1) <;> rfl

/-- The count of one more sample. -/
theorem countSample_ofNat (m : Nat) (v : Bit) : countSample (BitVec.ofNat 4 m) v = BitVec.ofNat 4 (m + v.toNat) := by
  cases v
  · rfl
  · exact (BitVec.ofNat_add m 1).symm

/-- One more sample of the frame word. -/
theorem HoldsPrefix.sampled {d : Decoder} {w : FrameWord} {n : Nat} (h : HoldsPrefix d w n) (hn : n ≤ 9) :
    HoldsPrefix (sampled d (w.getLsbD n)) w (n + 1) := by
  obtain ⟨hpos, hstart, hdata, hpar⟩ := h
  have hpos' := (sampled_pos (w.getLsbD n) (d := d) (by omega)).trans (congrArg (· + 1) hpos)
  rcases early_cases (n := d.pos.toNat) (by omega) (by omega) with h1 | h10 | ⟨h2, h9⟩
  · -- the start sample
    obtain rfl : n = 0 := by omega
    rw [sampled_first _ h1]
    exact ⟨rfl, fun _ => rfl, fun i hi => by simpa using hdata i hi, hpar⟩
  · -- the parity sample
    obtain rfl : n = 9 := by omega
    rw [sampled_parity _ h10]
    refine ⟨rfl, fun _ => hstart (by decide), fun i hi => ?_, ?_⟩
    · rw [hdata i hi, decide_eq_true (by omega : i + 1 < 9), decide_eq_true (by omega : i + 1 < 9 + 1)]
    · rw [onesBefore_succ w (by decide), hpar, countSample_ofNat]
  · -- a data sample
    rw [sampled_data _ h2 h9] at hpos' ⊢
    refine ⟨hpos', fun _ => hstart (by omega), fun i hi => ?_, ?_⟩
    · rw [setBit_getLsbD _ (by omega), hdata i hi]
      by_cases hin : i = d.pos.toNat - 2
      · simp [if_pos hin, show i + 1 = n by omega]
      · rw [if_neg hin, decide_eq_decide.2 (by omega : i + 1 < n ↔ i + 1 < n + 1)]
    · rw [onesBefore_succ w (by omega), hpar, countSample_ofNat]

/-- The first `n` samples of a frame word. -/
def firstSamples (w : FrameWord) (n : Nat) : List Bit := (List.range n).map fun i => w.getLsbD i

theorem holdsPrefix_firstSamples {d : Decoder} {w : FrameWord} (h : HoldsPrefix d w 0) {n : Nat} (hn : n ≤ 10) :
    HoldsPrefix (sampledAll d (firstSamples w n)) w n := by
  induction n with
  | zero => exact h
  | succ n ih =>
    have hprefix := (ih (by omega)).sampled (by omega)
    rwa [sampledAll, firstSamples, List.range_succ, List.map_append, List.foldl_append]

/-- Ten samples are all that EDGE_STOP needs to know of a frame word. -/
theorem HoldsPrefix.holds {d : Decoder} {w : FrameWord} (h : HoldsPrefix d w 10) : d.holds w = true := by
  obtain ⟨hpos, hstart, hdata, hpar⟩ := h
  have hones : onesBefore w 10 = popcount (w.extractLsb' 1 9) := by
    refine List.countP_congr fun i hi => ?_
    have hi9 : i < 9 := List.mem_range.1 hi
    simp [hi9, Nat.add_comm 1 i]
  refine holds_iff.2 ⟨BitVec.eq_of_toNat_eq hpos, hstart (by decide), ?data, ?parity⟩
  case data =>
    refine BitVec.eq_of_getLsbD_eq fun i hi => ?_
    rw [hdata i hi, frameData, BitVec.getLsbD_extractLsb']
    simp [hi, show i + 1 < 10 by omega, Nat.add_comm 1 i]
  case parity =>
    rw [parityOdd_eq, hpar, hones, frameOdd, BitVec.toNat_ofNat, Nat.mod_mod_of_dvd _ (by decide)]
    exact Bool.beq_eq_decide_eq .. |>.symm

/-- The schedule is no part of what a serial operation uses. -/
theorem UsesOnlySerialState.sched {o : State → Res State} (h : UsesOnlySerialState o) (s : State) (l : List Item) :
    o { s with sched := l } = mapNext (fun t => { t with sched := l }) (o s) := by
  refine (h.reads s { s with sched := l, evlog := [] }).trans ?_
  cases ho : o s with
  | next t =>
    refine congrArg Host.Outcome.next ?_
    rw [h.writes ho]
    rfl
  | fault r => rfl
  | refused r => rfl

/-- Ten edges from position 1 leave a decoder that holds the frame word. -/
theorem run_tenEdges {s : State} {w : FrameWord} {rest : List Item} (hrun : s.Running) (hirq : s.irqEn = true)
    (hpos : s.dec.pos = 1#4) (hdata : s.dec.data = 0x00#8) (hpar : s.dec.par = 0#4)
    (hs : s.sched = frameEdges w ++ rest) (k : Nat) :
    ∃ d, d.holds w = true ∧
      core.run (10 + k) s = core.run k { s with dec := d, sched := .edge (frameStop w) :: rest } := by
  have hnone : HoldsPrefix s.dec w 0 := by
    refine ⟨by rw [hpos]; rfl, nofun, fun i _ => ?_, hpar⟩
    simp [hdata]
  refine ⟨_, (holdsPrefix_firstSamples hnone (by decide)).holds, ?_⟩
  have hlen : s.dec.pos.toNat + (firstSamples w 10).length ≤ 11 := by
    rw [hpos, firstSamples, List.length_map]
    decide
  exact run_earlyEdges (vs := firstSamples w 10) hrun hirq hs (by rw [hpos]; decide) hlen k

/-- Settles O15: ten samples leave a decoder that holds the frame word, and the eleventh is its EDGE_STOP. -/
theorem elevenEdgesDecodeAFrame : Obligations.ElevenEdgesDecodeAFrame := by
  unfold Obligations.ElevenEdgesDecodeAFrame
  intro s w rest hrun hirq hlt hpos hdata hpar hs
  obtain ⟨d, hholds, hten⟩ := run_tenEdges hrun hirq hpos hdata hpar hs 1
  have hstep : step { s with dec := d, sched := .edge (frameStop w) :: rest } =
      exec (.edgeStop (frameStop w)) { s with dec := d, sched := rest } :=
    step_lastEdge (s := { s with dec := d, sched := .edge (frameStop w) :: rest }) hrun hirq rfl (holds_iff.1 hholds).1
  constructor
  case left =>
    intro hvalid
    obtain ⟨p, hpush⟩ : ∃ p, bufPush (frameData w) s = .next p := ⟨_, bufPush_eq _ s hlt⟩
    have hstop : exec (.edgeStop (frameStop w)) { s with dec := d, sched := rest } =
        .next (frameReset { p with dec := d, sched := rest }) := by
      refine (edgeStop_of_valid hholds hvalid).trans ?_
      rw [(usesOnlySerialState_bufPush _).sched { s with dec := d } rest, bufPush_dec, hpush]
      rfl
    exact ⟨p, hpush, hten.trans (run_succ (hstep.trans hstop) 0)⟩
  case right =>
    intro hinvalid
    rw [edgeStop_of_invalid hholds hinvalid] at hstep
    exact hten.trans (run_succ hstep 0)

/-! A shifted decoder. -/

/-- A frame whose start sample was 1, or whose stop sample is 0, is rejected (R107). -/
theorem accepts_false {d : Decoder} (h : d.start = true ∨ d.stop = false) : d.accepts = false := by
  refine Bool.eq_false_iff.2 fun haccept => ?_
  obtain ⟨-, hstart, hstop⟩ := accepts_iff.1 haccept
  rcases h with h | h
  · rw [hstart] at h
    cases h
  · rw [hstop] at h
    cases h

/-- The edge at position 11 of a frame that is rejected: one log entry, and the frame reset. -/
theorem step_rejectingEdge {s : State} {v : Bit} {rest : List Item} (hrun : s.Running) (hirq : s.irqEn = true)
    (hs : s.sched = .edge v :: rest) (hpos : s.dec.pos = 11#4) (hreject : s.dec.start = true ∨ v = false) :
    step s = .next { s with
      dec := ⟨1#4, 0#8, false, false, 0#4⟩
      evlog := s.evlog ++ [Decoder.framingEvent { s.dec with stop := v }]
      sched := rest } := by
  rw [step_lastEdge hrun hirq hs hpos, exec_edgeStop, beq_iff_eq.2 hpos, whenSelected_true,
    endFrame_of_rejects (accepts_false hreject)]
  rfl

/-- The edge at position 1 is stored as the start bit. -/
theorem step_firstEdge {s : State} {v : Bit} {rest : List Item} (hrun : s.Running) (hirq : s.irqEn = true)
    (hs : s.sched = .edge v :: rest) (hpos : s.dec.pos = 1#4) :
    step s = .next { s with dec := { s.dec with start := v, pos := 2#4 }, sched := rest } := by
  rw [step_earlyEdge hrun hirq hs (by rw [hpos]; decide) (by rw [hpos]; decide), sampled_first v (by rw [hpos]; rfl)]

/-- One position ahead: nine samples and a parity sample read as the stop bit, which the start bit 1 rejects; then the stop
bit is read as the next start bit. -/
theorem run_ahead {s : State} {w : FrameWord} {rest : List Item} (hrun : s.Running) (hirq : s.irqEn = true)
    (hs : s.sched = frameEdges w ++ rest) (hpos : s.dec.pos = 2#4) (hstart : s.dec.start = true) :
    ∃ e, core.run 11 s = .next { s with
      dec := ⟨2#4, 0#8, frameStop w, false, 0#4⟩, evlog := s.evlog ++ [e], sched := rest } := by
  have hlen : s.dec.pos.toNat + (firstSamples w 9).length = 11 := by
    rw [hpos, firstSamples, List.length_map]
    decide
  have hnine := run_earlyEdges (vs := firstSamples w 9) hrun hirq hs (by rw [hpos]; decide) hlen.le 2
  generalize hd : sampledAll s.dec (firstSamples w 9) = d at hnine
  have hpos11 : d.pos = 11#4 := hd ▸ BitVec.eq_of_toNat_eq ((sampledAll_pos hlen.le).trans hlen)
  have hstart' : d.start = true := hd ▸ (sampledAll_start (by rw [hpos]; decide) hlen.le).trans hstart
  have hreject := step_rejectingEdge (v := frameParity w) (rest := .edge (frameStop w) :: rest)
    (s := { s with dec := d, sched := .edge (frameParity w) :: .edge (frameStop w) :: rest }) hrun hirq rfl hpos11
    (.inl hstart')
  have hfirst := step_firstEdge (v := frameStop w) (rest := rest) (s := { s with
    dec := ⟨1#4, 0#8, false, false, 0#4⟩, evlog := s.evlog ++ [Decoder.framingEvent { d with stop := frameParity w }]
    sched := .edge (frameStop w) :: rest }) hrun hirq rfl rfl
  exact ⟨_, hnine.trans ((run_succ hreject 1).trans (run_succ hfirst 0))⟩

/-- One position behind: the start sample is read as the stop bit, which rejects; the other ten samples follow from
position 1. -/
theorem run_behind {s : State} {w : FrameWord} {rest : List Item} (hrun : s.Running) (hirq : s.irqEn = true)
    (hs : s.sched = frameEdges w ++ rest) (hpos : s.dec.pos = 11#4) (hstart : frameStart w = false) :
    ∃ d e, d.pos = 11#4 ∧ core.run 11 s = .next { s with dec := d, evlog := s.evlog ++ [e], sched := rest } := by
  have hreject := step_rejectingEdge (v := frameStart w)
    (rest := ((List.range 10).map fun i => w.getLsbD (i + 1)).map Item.edge ++ rest) hrun hirq hs hpos (.inr hstart)
  have hlen : (1#4).toNat + ((List.range 10).map fun i => w.getLsbD (i + 1)).length = 11 := by
    rw [List.length_map]
    decide
  have hten := run_earlyEdges (rest := rest) (s := { s with
    dec := ⟨1#4, 0#8, false, false, 0#4⟩, evlog := s.evlog ++ [Decoder.framingEvent { s.dec with stop := frameStart w }]
    sched := _ }) hrun hirq rfl (Nat.le_refl 1) hlen.le 0
  exact ⟨_, _, BitVec.eq_of_toNat_eq ((sampledAll_pos hlen.le).trans hlen), (run_succ hreject 10).trans hten⟩

/-- Settles O16: the two shifted runs, each rejecting once and ending at its offset again. -/
theorem shiftedDecoderRejectsEveryFrame : Obligations.ShiftedDecoderRejectsEveryFrame := by
  unfold Obligations.ShiftedDecoderRejectsEveryFrame
  intro s w rest hrun hirq hs
  constructor
  case left =>
    intro hpos hstart _ _ hstop
    obtain ⟨e, hahead⟩ := run_ahead hrun hirq hs hpos hstart
    exact ⟨_, hahead, rfl, hstop, rfl, rfl, rfl, rfl, List.length_append⟩
  case right =>
    intro hpos hstart
    obtain ⟨d, e, hd, hbehind⟩ := run_behind hrun hirq hs hpos hstart
    exact ⟨_, hbehind, hd, rfl, rfl, List.length_append⟩

end Sys2Proof

/-! ### The scan-code buffer as a queue (spec/41 R93 to R102): the ring against the list of unread bytes -/

namespace Sys2Proof

open Machine

/-! Indices of a ring of `N` slots, with head `h` and tail `t`: `(t + N - h) % N` slots are unread. -/

theorem mod_eq_ite {x N : Nat} (h : x < 2 * N) : x % N = if x < N then x else x - N := by
  split
  case isTrue hlt => exact Nat.mod_eq_of_lt hlt
  case isFalse hge => rw [Nat.mod_eq_sub_mod (by omega), Nat.mod_eq_of_lt (by omega)]

theorem ring_count_lt {N h t : Nat} (hh : h < N) : (t + N - h) % N < N := Nat.mod_lt _ (by omega)

/-- The tail is one past the last unread slot. -/
theorem ring_end {N h t : Nat} (hh : h < N) (ht : t < N) : (h + (t + N - h) % N) % N = t := by
  rw [Nat.add_mod_mod, show h + (t + N - h) = t + N by omega, Nat.add_mod_right, Nat.mod_eq_of_lt ht]

/-- No unread slot is the tail's. -/
theorem ring_unread_ne_tail {N h t k : Nat} (hh : h < N) (ht : t < N) (hk : k < (t + N - h) % N) : (h + k) % N ≠ t := by
  rw [mod_eq_ite (by omega)] at hk
  rw [mod_eq_ite (x := h + k) (by split at hk <;> omega)]
  split at hk <;> split <;> omega

/-- The ring is empty where the indices meet. -/
theorem ring_count_eq_zero {N h t : Nat} (hh : h < N) (ht : t < N) : (t + N - h) % N = 0 ↔ h = t := by
  rw [mod_eq_ite (by omega)]
  split <;> omega

/-- The ring is full where the advanced tail meets the head. -/
theorem ring_full_iff {N h t : Nat} (hh : h < N) (ht : t < N) : (t + 1) % N = h ↔ (t + N - h) % N + 1 = N := by
  rw [mod_eq_ite (x := t + 1) (by omega), mod_eq_ite (x := t + N - h) (by omega)]
  split <;> split <;> omega

/-- Advancing the tail of a ring with room adds one unread slot. -/
theorem ring_count_push {N h t : Nat} (hh : h < N) (ht : t < N) (hroom : (t + 1) % N ≠ h) :
    ((t + 1) % N + N - h) % N = (t + N - h) % N + 1 := by
  have hlt : (t + 1) % N < N := Nat.mod_lt _ (by omega)
  have hnext := mod_eq_ite (x := t + 1) (N := N) (by omega)
  rw [mod_eq_ite (x := (t + 1) % N + N - h) (by omega), mod_eq_ite (x := t + N - h) (by omega)]
  split at hnext <;> split <;> split <;> omega

/-- Advancing the head of a ring that is not empty removes one unread slot. -/
theorem ring_count_pop {N h t : Nat} (hh : h < N) (ht : t < N) (hne : h ≠ t) :
    (t + N - (h + 1) % N) % N + 1 = (t + N - h) % N := by
  have hlt : (h + 1) % N < N := Nat.mod_lt _ (by omega)
  have hnext := mod_eq_ite (x := h + 1) (N := N) (by omega)
  rw [mod_eq_ite (x := t + N - (h + 1) % N) (by omega), mod_eq_ite (x := t + N - h) (by omega)]
  split at hnext <;> split <;> split <;> omega

/-- Advancing both indices of a full ring keeps it full. -/
theorem ring_count_push_full {N h t : Nat} (hh : h < N) (ht : t < N) (hfull : (t + 1) % N = h) :
    ((t + 1) % N + N - (h + 1) % N) % N = (t + N - h) % N := by
  have hlt : (h + 1) % N < N := Nat.mod_lt _ (by omega)
  have hnext := mod_eq_ite (x := h + 1) (N := N) (by omega)
  have hcount := (ring_full_iff hh ht).1 hfull
  rw [hfull, mod_eq_ite (x := h + N - (h + 1) % N) (by omega)]
  split at hnext <;> split <;> omega

theorem ring_shift (N h k : Nat) : ((h + 1) % N + k) % N = (h + (k + 1)) % N := by
  rw [Nat.mod_add_mod, Nat.add_right_comm, Nat.add_assoc]

/-! The unread bytes. -/

/-- What `bufferOk` says of a state. -/
theorem bufferOk_iff {s : State} : bufferOk s = true ↔
    s.buf.head < s.slots ∧ s.buf.tail < s.slots ∧ Memory.wf s.buf.mem = true ∧ (∀ c ∈ s.buf.mem, c.1 < s.slots) ∧
    ∀ k < s.count, (Memory.read s.buf.mem ((s.buf.head + k) % s.slots)).isSome = true := by
  simp only [bufferOk, Bool.and_eq_true, decide_eq_true_eq, List.all_eq_true, List.mem_range, and_assoc]

theorem contents_length (s : State) : s.contents.length = s.count := by
  rw [State.contents, List.length_map, List.length_range]

theorem contents_length_le {s : State} (h : s.buf.head < s.slots) : s.contents.length ≤ s.cfg.cap := by
  rw [contents_length]
  exact Nat.lt_succ_iff.1 (ring_count_lt h)

/-- A buffer with an unread byte: its first byte is in the head's slot, and the others follow. -/
theorem contents_eq_cons {s : State} {n : Nat} (h : s.count = n + 1) : s.contents =
    s.slotByte (s.buf.head % s.slots) :: (List.range n).map fun k => s.slotByte ((s.buf.head + (k + 1)) % s.slots) := by
  rw [State.contents, h, List.range_succ_eq_map, List.map_cons, List.map_map]
  rfl

/-! PUSH. -/

section Push

variable {b : Byte} {s t : State}

/-- PUSH keeps the memory in its canonical form and inside the ring. -/
theorem bufPush_mem (hpush : bufPush b s = .next t) (hwf : Memory.wf s.buf.mem = true)
    (hin : ∀ c ∈ s.buf.mem, c.1 < s.slots) : Memory.wf t.buf.mem = true ∧ ∀ c ∈ t.buf.mem, c.1 < s.slots := by
  rw [(bufPush_mem_tail hpush).1]
  refine ⟨Memory.write_wf _ _ _ hwf, fun c hc => ?_⟩
  rcases Memory.mem_write _ _ _ _ hc with rfl | hold
  · exact bufPush_next hpush
  · exact hin c hold

/-- After PUSH a slot holds a written byte where it is the tail's old slot or held one before. -/
theorem bufPush_isSome (hpush : bufPush b s = .next t) {a : Nat}
    (h : a ≠ s.buf.tail → (Memory.read s.buf.mem a).isSome = true) : (Memory.read t.buf.mem a).isSome = true := by
  rw [(bufPush_mem_tail hpush).1]
  by_cases ha : a = s.buf.tail
  · rw [ha, Memory.read_write_same]
    rfl
  · rw [Memory.read_write_other _ ha]
    exact h ha

theorem bufPush_slots (hpush : bufPush b s = .next t) : t.slots = s.slots := by
  rw [State.slots, State.slots, (usesOnlySerialState_bufPush b).keepsConfiguration hpush]

/-- PUSH into a buffer with room appends the byte. -/
theorem bufPush_room (hok : bufferOk s = true) (hroom : (s.buf.tail + 1) % s.slots ≠ s.buf.head) :
    ∃ t, bufPush b s = .next t ∧ bufferOk t = true ∧ t.contents = s.contents ++ [b] ∧ t.evlog = s.evlog := by
  obtain ⟨hh, ht, hwf, hin, hread⟩ := bufferOk_iff.1 hok
  obtain ⟨t, hpush, hbyte, hothers, htail, -, hkeep, -⟩ := pushWritesTheTailSlot b s ht
  obtain ⟨hhead, hlog⟩ := hkeep (htail ▸ hroom)
  have hslots := bufPush_slots hpush
  have hcount : t.count = s.count + 1 := by
    rw [State.count, hslots, hhead, htail]
    exact ring_count_push hh ht hroom
  obtain ⟨hwf', hin'⟩ := bufPush_mem hpush hwf hin
  refine ⟨t, hpush, bufferOk_iff.2 ⟨?head, ?tail, hwf', ?inside, fun k hk => ?unread⟩, ?contents, hlog⟩
  case head => rwa [hhead, hslots]
  case tail =>
    rw [htail, hslots]
    exact Nat.mod_lt _ (by omega)
  case inside => rwa [hslots]
  case unread =>
    rw [hhead, hslots]
    refine bufPush_isSome hpush fun hne => hread k ?_
    have hlast : k ≠ s.count := fun heq => hne (heq ▸ ring_end hh ht)
    omega
  case contents =>
    have hkept : ∀ k ∈ List.range s.count,
        t.slotByte ((s.buf.head + k) % s.slots) = s.slotByte ((s.buf.head + k) % s.slots) :=
      fun k hk => hothers _ (ring_unread_ne_tail hh ht (List.mem_range.1 hk))
    have hlast : (s.buf.head + s.count) % s.slots = s.buf.tail := ring_end hh ht
    rw [State.contents, hcount, hslots, hhead, List.range_succ, List.map_append, List.map_singleton, hlast, hbyte,
      List.map_congr_left hkept]
    rfl

/-- PUSH into a full buffer drops the oldest byte, logs it and appends the byte. -/
theorem bufPush_full (hok : bufferOk s = true) (hcap : 1 ≤ s.cfg.cap)
    (hfull : (s.buf.tail + 1) % s.slots = s.buf.head) :
    ∃ t, bufPush b s = .next t ∧ bufferOk t = true ∧ t.contents = s.contents.drop 1 ++ [b] ∧
      t.evlog = s.evlog ++ s.contents.head?.toList.map .overflow := by
  obtain ⟨hh, ht, hwf, hin, hread⟩ := bufferOk_iff.1 hok
  obtain ⟨t, hpush, hbyte, hothers, htail, hdrop, -, -⟩ := pushWritesTheTailSlot b s ht
  obtain ⟨hhead, hlog⟩ := hdrop (htail ▸ hfull)
  have hslots := bufPush_slots hpush
  have hcap' : s.count = s.cfg.cap := Nat.succ_inj.1 ((ring_full_iff hh ht).1 hfull)
  obtain ⟨m, hm⟩ := Nat.exists_eq_add_of_le' (hcap' ▸ hcap : 1 ≤ s.count)
  have hcount : t.count = m + 1 := by
    rw [← hm, State.count, hslots, hhead, htail]
    exact ring_count_push_full hh ht hfull
  have hlast : (s.buf.head + (m + 1)) % s.slots = s.buf.tail := hm ▸ ring_end hh ht
  obtain ⟨hwf', hin'⟩ := bufPush_mem hpush hwf hin
  refine ⟨t, hpush, bufferOk_iff.2 ⟨?head, ?tail, hwf', ?inside, fun k hk => ?unread⟩, ?contents, ?log⟩
  case head =>
    rw [hhead, hslots]
    exact Nat.mod_lt _ (by omega)
  case tail =>
    rw [htail, hslots]
    exact Nat.mod_lt _ (by omega)
  case inside => rwa [hslots]
  case unread =>
    rw [hhead, hslots, ring_shift]
    refine bufPush_isSome hpush fun hne => hread (k + 1) ?_
    have hend : k ≠ m := fun heq => hne (heq ▸ hlast)
    omega
  case contents =>
    have hkept : ∀ k ∈ List.range m, t.slotByte (((s.buf.head + 1) % s.slots + k) % s.slots) =
        s.slotByte ((s.buf.head + (k + 1)) % s.slots) := by
      intro k hk
      rw [ring_shift]
      exact hothers _ (ring_unread_ne_tail hh ht (by have := List.mem_range.1 hk; change _ < s.count; omega))
    rw [contents_eq_cons hm, List.drop_one, List.tail_cons, State.contents, hcount, hslots, hhead, List.range_succ,
      List.map_append, List.map_singleton, ring_shift, hlast, hbyte, List.map_congr_left hkept]
  case log =>
    have hne : s.buf.head ≠ s.buf.tail := fun heq => by
      have := (ring_count_eq_zero hh ht).2 heq
      change s.count = 0 at this
      omega
    rw [hlog, if_neg hne, contents_eq_cons hm, Nat.mod_eq_of_lt hh]
    rfl

end Push

/-- Settles O19: a buffer has room or is full, which is when its advanced tail meets the head. -/
theorem pushIsDropOldestOnTheContents : Obligations.PushIsDropOldestOnTheContents := by
  unfold Obligations.PushIsDropOldestOnTheContents
  intro b s hok hcap
  obtain ⟨hh, ht, -⟩ := bufferOk_iff.1 hok
  have hfull_iff : s.contents.length = s.cfg.cap ↔ (s.buf.tail + 1) % s.slots = s.buf.head := by
    rw [contents_length, ring_full_iff hh ht]
    exact Nat.succ_inj.symm
  refine ⟨contents_length_le hh, ?_⟩
  by_cases hfull : s.contents.length = s.cfg.cap
  case pos =>
    simp only [if_pos hfull]
    exact bufPush_full hok hcap (hfull_iff.1 hfull)
  case neg =>
    simp only [if_neg hfull, List.append_nil]
    exact bufPush_room hok (mt hfull_iff.2 hfull)

/-! POP. -/

/-- An empty list of unread bytes is an empty buffer. -/
theorem contents_eq_nil_iff {s : State} (hh : s.buf.head < s.slots) (ht : s.buf.tail < s.slots) :
    s.contents = [] ↔ s.buf.head = s.buf.tail := by
  rw [← List.length_eq_zero_iff, contents_length]
  exact ring_count_eq_zero hh ht

/-- POP takes the first unread byte, if any, and leaves a buffer with the others. -/
theorem bufPop_contents {s : State} (hok : bufferOk s = true) :
    ∃ t, bufPop s = .next (s.contents.head?, t) ∧ t.contents = s.contents.drop 1 ∧ bufferOk t = true ∧ t.cfg = s.cfg := by
  obtain ⟨hh, ht, hwf, hin, hread⟩ := bufferOk_iff.1 hok
  by_cases hempty : s.buf.head = s.buf.tail
  case pos =>
    have hnil := (contents_eq_nil_iff hh ht).2 hempty
    exact ⟨s, by rw [bufPop_empty hempty, hnil]; rfl, by rw [hnil]; rfl, hok, rfl⟩
  case neg =>
    have hcount : State.count { s with buf := { s.buf with head := (s.buf.head + 1) % s.slots } } + 1 = s.count :=
      ring_count_pop hh ht hempty
    refine ⟨{ s with buf := { s.buf with head := (s.buf.head + 1) % s.slots } }, ?pop, ?contents,
      bufferOk_iff.2 ⟨?head, ht, hwf, hin, fun k hk => ?unread⟩, rfl⟩
    case pop => rw [bufPop_some hempty hh, contents_eq_cons hcount.symm, Nat.mod_eq_of_lt hh, List.head?_cons]
    case contents =>
      rw [contents_eq_cons hcount.symm, List.drop_one, List.tail_cons]
      exact List.map_congr_left fun k _ => congrArg s.slotByte (ring_shift _ _ k)
    case head => exact Nat.mod_lt _ (Nat.zero_lt_of_lt hh)
    case unread =>
      have hold := hread (k + 1) (hcount ▸ Nat.succ_lt_succ hk)
      rwa [← ring_shift] at hold

/-- Settles O20: POP's byte and the list it leaves. -/
theorem popTakesTheOldestByte : Obligations.PopTakesTheOldestByte := by
  unfold Obligations.PopTakesTheOldestByte
  intro s hok
  obtain ⟨t, hpop, hcontents, -, -⟩ := bufPop_contents hok
  exact ⟨t, hpop, hcontents⟩

/-! Sequences of PUSH and of POP. -/

/-- Pushes into a buffer with room for all of them append them in order. -/
theorem runOps_push_room {xs : List Byte} {s : State} (hok : bufferOk s = true) (hcap : 1 ≤ s.cfg.cap)
    (hroom : s.contents.length + xs.length ≤ s.cfg.cap) (rest : List Instr) :
    ∃ t, runOps (xs.map .push ++ rest) s = runOps rest t ∧ bufferOk t = true ∧ t.contents = s.contents ++ xs ∧
      t.cfg = s.cfg := by
  induction xs generalizing s with
  | nil => exact ⟨s, rfl, hok, (List.append_nil _).symm, rfl⟩
  | cons b xs ih =>
    rw [List.length_cons] at hroom
    obtain ⟨-, u, hpush, hok', hcontents, -⟩ := pushIsDropOldestOnTheContents b s hok hcap
    rw [if_neg (by omega)] at hcontents
    have hcfg : u.cfg = s.cfg := (usesOnlySerialState_bufPush b).keepsConfiguration hpush
    have hroom' : u.contents.length + xs.length ≤ u.cfg.cap := by
      rw [hcontents, hcfg, List.length_append, List.length_singleton]
      omega
    obtain ⟨t, hrun, hokt, hcontents', hcfg'⟩ := ih hok' (hcfg ▸ hcap) hroom'
    refine ⟨t, ?_, hokt, by rw [hcontents', hcontents, List.append_assoc]; rfl, hcfg'.trans hcfg⟩
    rw [← hrun, List.map_cons, List.cons_append, runOps, hpush, andThen_next]

/-- As many pops as there are unread bytes give them all, in order. -/
theorem popMany_contents {s : State} (hok : bufferOk s = true) {n : Nat} (hn : s.contents.length = n) :
    ∃ u, popMany n s = .next (s.contents.map some, u) ∧ bufferOk u = true ∧ u.contents = [] := by
  induction n generalizing s with
  | zero =>
    have hnil := List.length_eq_zero_iff.1 hn
    exact ⟨s, by rw [hnil]; rfl, hok, hnil⟩
  | succ n ih =>
    obtain ⟨t, hpop, hcontents, hokt, -⟩ := bufPop_contents hok
    obtain ⟨b, rest, hcons⟩ := List.exists_cons_of_length_eq_add_one hn
    rw [hcons, List.drop_one, List.tail_cons] at hcontents
    have hlen : t.contents.length = n := by
      rw [hcons, List.length_cons] at hn
      rw [hcontents]
      exact Nat.succ_inj.1 hn
    obtain ⟨u, hmany, hoku, hempty⟩ := ih hokt hlen
    refine ⟨u, ?_, hoku, hempty⟩
    rw [popMany, hpop, andThen_next, hmany, andThen_next, hcontents, hcons]
    rfl

/-- Settles O21: the first C pushes fill the buffer, the last one drops the first byte, and the pops give what is left. -/
theorem oneByteTooManyEvictsTheFirst : Obligations.OneByteTooManyEvictsTheFirst := by
  unfold Obligations.OneByteTooManyEvictsTheFirst
  intro s xs hok hempty hcap hlen
  obtain ⟨hh, ht, -⟩ := bufferOk_iff.1 hok
  have hnil := (contents_eq_nil_iff hh ht).2 hempty
  obtain ⟨ys, b, rfl⟩ := (List.eq_nil_or_concat' xs).resolve_left (by rintro rfl; simp at hlen)
  have hys : ys.length = s.cfg.cap := by simpa using hlen
  obtain ⟨u, hfill, hoku, hcontents, hcfg⟩ :=
    runOps_push_room (xs := ys) hok hcap (by rw [hnil, hys]; exact (Nat.zero_add _).le) [.push b]
  rw [hnil, List.nil_append] at hcontents
  obtain ⟨-, t, hpush, hokt, hdropped, -⟩ := pushIsDropOldestOnTheContents b u hoku (hcfg ▸ hcap)
  rw [hcontents, hcfg, if_pos hys] at hdropped
  have hleft : t.contents = (ys ++ [b]).drop 1 := by
    rw [hdropped, List.drop_append_of_le_length (by omega)]
  have hlent : t.contents.length = s.cfg.cap := by
    rw [hleft, List.length_drop, hlen, Nat.add_sub_cancel]
  obtain ⟨v, hpops, hokv, hdone⟩ := popMany_contents hokt hlent
  obtain ⟨hhv, htv, -⟩ := bufferOk_iff.1 hokv
  refine ⟨t, v, ?_, hleft ▸ hpops, bufPop_empty ((contents_eq_nil_iff hhv htv).1 hdone)⟩
  rw [List.map_append, List.map_singleton, hfill]
  exact andThen_eq_next.2 ⟨t, hpush, rfl⟩

end Sys2Proof

/-! ### The driver and the array (spec/40 R84 to R92): one call, its wires, the sentinel, and MATRIX_RESET -/

namespace Sys2Proof

open Machine

theorem exec_setswitchSentinel (on : Bit) (a : BitVec 7) (s : State) :
    exec (.setswitchSentinel on a) s = setSwitch on (BitVec.ofBool true ++ a) s := rfl

/-- Settles O25: bit 7 of the address is the sentinel bit. -/
theorem sentinelFaultsAtTheDriver : Obligations.SentinelFaultsAtTheDriver := by
  unfold Obligations.SentinelFaultsAtTheDriver
  intro on a s
  rw [exec_setswitchSentinel, setSwitch_sentinel (isSentinel_ofBool_append true a)]

/-- The fields of an address below the sentinel bit. -/
theorem extractLsb'_ofBool_append_of_le {start len : Nat} (h : start + len ≤ 7) (b : Bit) (a : BitVec 7) :
    (BitVec.ofBool b ++ a : SwitchAddress).extractLsb' start len = a.extractLsb' start len := by
  refine BitVec.eq_of_getLsbD_eq fun i hi => ?_
  rw [BitVec.getLsbD_extractLsb', BitVec.getLsbD_extractLsb', ofBool_append_getLsbD, if_pos (by omega)]

/-- The crosspoint of an address is its bits 5:0 (R40, R61). -/
theorem addrCell_eq (a : SwitchAddress) : addrCell a = a.extractLsb' 0 6 := by
  refine BitVec.eq_of_getLsbD_eq fun i hi => ?_
  change (addrY a ++ addrX a : BitVec (2 + 4)).getLsbD i = _
  rw [BitVec.getLsbD_append, addrX, addrY, BitVec.getLsbD_extractLsb', BitVec.getLsbD_extractLsb',
    BitVec.getLsbD_extractLsb']
  split
  case isTrue h => simp [h, hi]
  case isFalse h => simp [hi, show i - 4 < 2 by omega, show 4 + (i - 4) = i by omega]

/-- Settles O23: one call is one crosspoint write, one trace entry and quiet wires. -/
theorem setSwitchWritesOneCrosspoint : Obligations.SetSwitchWritesOneCrosspoint := by
  unfold Obligations.SetSwitchWritesOneCrosspoint
  intro a s
  have hreal := isSentinel_ofBool_append false a
  have hclosed (on : Bool) (c : BitVec 6) : (afterCall s (on, BitVec.ofBool false ++ a)).closed c =
      if c = a.extractLsb' 0 6 then on else s.closed c := by
    rw [afterCall_closed, addrCell_eq, extractLsb'_ofBool_append_of_le (by decide)]
    exact if_congr eq_comm rfl rfl
  have hentry (on : Bool) : (afterCall s (on, BitVec.ofBool false ++ a)).trace = s.trace ++
      [⟨on, BitVec.ofBool false ++ a, 1#1 ++ BitVec.ofBool on ++ a.extractLsb' 4 2 ++ remap (a.extractLsb' 0 4)⟩] := by
    rw [afterCall_trace, traceEntry, selWord, addrX, addrY, extractLsb'_ofBool_append_of_le (by decide),
      extractLsb'_ofBool_append_of_le (by decide)]
  exact ⟨_, _, setSwitch_ok hreal true s, setSwitch_ok hreal false s, hclosed true, hclosed false, hentry true, hentry false,
    rfl, rfl⟩

/-- Settles O24: the array decodes the select code that the wires carry back to the call's own X. -/
theorem wiresCarryTheCallUnderTheStrobe : Obligations.WiresCarryTheCallUnderTheStrobe := by
  unfold Obligations.WiresCarryTheCallUnderTheStrobe
  intro on a s
  have hxp : ((s.present on a).strobe true).xp = writeCell s.xp (addrY a ++ addrX a) on := by
    simp only [State.strobe, State.arrayResponds, State.present, if_true, decodeX_remap, writeCell, cell]
  have hclosed (c : BitVec 6) : ((s.present on a).strobe true).closed c =
      if addrY a ++ addrX a = c then on else s.closed c := by
    rw [State.closed, hxp]
    exact afterCall_closed s (on, a) c
  exact ⟨rfl, rfl, rfl, (hclosed _).trans (if_pos rfl), fun c hc => (hclosed c).trans (if_neg hc.symm)⟩

/-! The last write on a crosspoint. -/

/-- Where every call on a crosspoint has one level, the crosspoint is at that level or as it was, and at that level if there
was a call on it. -/
theorem lastWrite_of_level {cs : List DriverCall} {c : BitVec 6} {on : Bool}
    (h : ∀ k ∈ cs, addrCell k.2 = c → k.1 = on) (v : Bool) :
    (lastWrite cs c v = on ∨ lastWrite cs c v = v) ∧ ((∃ k ∈ cs, addrCell k.2 = c) → lastWrite cs c v = on) := by
  induction cs using List.reverseRecOn with
  | nil => exact ⟨.inr rfl, by simp⟩
  | append_singleton cs k ih =>
    obtain ⟨heither, hlast⟩ := ih fun k' hk' => h k' (List.mem_append_left _ hk')
    rw [lastWrite_append]
    by_cases hk : addrCell k.2 = c
    case pos =>
      have hwrite : lastWrite [k] c (lastWrite cs c v) = on :=
        (if_pos hk).trans (h k (List.mem_append_right _ (List.mem_singleton_self k)) hk)
      exact ⟨.inl hwrite, fun _ => hwrite⟩
    case neg =>
      have hkeep : lastWrite [k] c (lastWrite cs c v) = lastWrite cs c v := if_neg hk
      rw [hkeep]
      refine ⟨heither, fun ⟨k', hk', hc⟩ => hlast ⟨k', ?_, hc⟩⟩
      rcases List.mem_append.1 hk' with hmem | hmem
      · exact hmem
      · exact absurd (List.mem_singleton.1 hmem ▸ hc) hk

/-! MATRIX_RESET. -/

theorem exec_matrixReset (s : State) : exec .matrixReset s = .next (afterCalls s matrixCalls) :=
  runCalls_ok matrixCalls s matrixCalls_noSentinel

theorem matrixCalls_level {k : DriverCall} (h : k ∈ matrixCalls) : k.1 = false := by
  simp only [matrixCalls, List.mem_flatMap, List.mem_map] at h
  obtain ⟨x, -, y, -, rfl⟩ := h
  rfl

theorem mkAddr_mem_matrixCalls (x : BitVec 4) (y : BitVec 2) : (false, mkAddr x y) ∈ matrixCalls := by
  refine List.mem_flatMap.2 ⟨x.toNat, List.mem_range.2 x.isLt, List.mem_map.2 ⟨y.toNat, List.mem_range.2 y.isLt, ?_⟩⟩
  rw [BitVec.ofNat_toNat, BitVec.ofNat_toNat, BitVec.setWidth_eq, BitVec.setWidth_eq]

/-- Every crosspoint has a call of MATRIX_RESET. -/
theorem addrCell_mkAddr : ∀ c : BitVec 6, addrCell (mkAddr (c.extractLsb' 0 4) (c.extractLsb' 4 2)) = c := by decide

/-- After MATRIX_RESET every crosspoint is open, whatever it was (R89). -/
theorem lastWrite_matrixCalls (c : BitVec 6) (v : Bool) : lastWrite matrixCalls c v = false :=
  (lastWrite_of_level (fun _ hk _ => matrixCalls_level hk) v).2 ⟨_, mkAddr_mem_matrixCalls _ _, addrCell_mkAddr c⟩

/-- The trace entries of MATRIX_RESET, by position (R89, D24). -/
theorem matrixCalls_entries : ∀ (x : Fin 16) (y : Fin 4), (matrixCalls.map traceEntry)[4 * x.val + y.val]? =
    some ⟨false, BitVec.ofNat 8 (16 * y.val + x.val),
      BitVec.ofNat 8 (128 + 16 * y.val + (remap (BitVec.ofNat 4 x.val)).toNat)⟩ := by decide

theorem matrixCalls_length : matrixCalls.length = 64 := by decide

/-- Settles O26: the 64 calls, and the last write on every crosspoint. -/
theorem matrixResetOpensEveryCrosspoint : Obligations.MatrixResetOpensEveryCrosspoint := by
  unfold Obligations.MatrixResetOpensEveryCrosspoint
  intro s
  have hne : matrixCalls ≠ [] := fun h => absurd matrixCalls_length (by rw [h]; decide)
  refine ⟨_, _, exec_matrixReset s, fun c => ?opened, afterCalls_trace s _, ?length, matrixCalls_entries, ?frame⟩
  case opened => rw [afterCalls_closed, lastWrite_matrixCalls]
  case length => rw [List.length_map, matrixCalls_length]
  case frame =>
    rw [← show _ = (⟨0#4, 0#2, false, false⟩ : Wires) from afterCalls_out s hne]
    exact afterCalls_frame s matrixCalls

end Sys2Proof

/-! ### The interpreter and the joystick rows (spec/43, spec/44) -/

namespace Sys2Proof

open Machine

/-- Settles O28: a `resolve` entry is the selector of INTERP_RESOLVE, whose calls are those of the chosen variant. -/
theorem resolveDrivesTheVariantAndClears : Obligations.ResolveDrivesTheVariantAndClears := by
  unfold Obligations.ResolveDrivesTheVariantAndClears
  intro b s v0 v1 hscan
  rw [exec_interpResolve, hscan, isResolve, whenSelected_true, interpResolveOp_eq]
  rfl

/-- Settles O31: by induction on the sequence; each prefix sets its own flag. -/
theorem prefixOrderDoesNotMatter : Obligations.PrefixOrderDoesNotMatter := by
  unfold Obligations.PrefixOrderDoesNotMatter
  intro l
  induction l with
  | nil =>
    intro s _
    simp [runOps]
  | cons i rest ih =>
    intro s hall
    obtain ⟨hi, hrest⟩ := List.forall_mem_cons.1 hall
    rw [runOps]
    rcases hi with rfl | rfl | rfl
    · rw [exec_interpRel, andThen_next, ih _ hrest]
      simp
    · rw [exec_interpExtA, andThen_next, ih _ hrest]
      simp
    · rw [exec_interpExtB, andThen_next, ih _ hrest]
      simp [Bool.or_comm]

/-! The change rows. -/

/-- A change row whose direction bits require `closes`. -/
theorem exec_rowOfBits {i : Instr} {j : JoyId} {b2 b1 r l d u invalid : Bit} {opens closes : List JoyName} {s : State}
    (hrow : rowSnapshot i = some (j, mkSnap b2 b1 r l d u))
    (hreq : req (dirCase (BitVec.ofBool r ++ BitVec.ofBool l ++ BitVec.ofBool d ++ BitVec.ofBool u)) = closes)
    (hopens : namesOutside closes = opens)
    (hinvalid : nibbleInvalid (BitVec.ofBool r ++ BitVec.ofBool l ++ BitVec.ofBool d ++ BitVec.ofBool u) = invalid)
    (htable : joyTableOk s.cfg j = true) (hchanged : mkSnap b2 b1 r l d u ≠ s.joyPrev.get j) :
    exec i s = .next (changeTo s j (mkSnap b2 b1 r l d u) opens closes invalid) := by
  rw [exec_changeRow_eq hrow htable hchanged, nibble_mkSnap, hreq, hopens, hinvalid]

/-- Settles O34: the four cardinal nibbles and their REQ sets. -/
theorem cardinalRowsOpenSevenAndCloseOne : Obligations.CardinalRowsOpenSevenAndCloseOne := by
  unfold Obligations.CardinalRowsOpenSevenAndCloseOne
  intro j b1 b2 s htable
  exact ⟨exec_rowOfBits rfl rfl rfl rfl htable, exec_rowOfBits rfl rfl rfl rfl htable,
    exec_rowOfBits rfl rfl rfl rfl htable, exec_rowOfBits rfl rfl rfl rfl htable⟩

/-- Settles O35: the four diagonal nibbles and their REQ sets. -/
theorem diagonalRowsOpenFiveAndCloseThree : Obligations.DiagonalRowsOpenFiveAndCloseThree := by
  unfold Obligations.DiagonalRowsOpenFiveAndCloseThree
  intro j b1 b2 s htable
  exact ⟨exec_rowOfBits rfl rfl rfl rfl htable, exec_rowOfBits rfl rfl rfl rfl htable,
    exec_rowOfBits rfl rfl rfl rfl htable, exec_rowOfBits rfl rfl rfl rfl htable⟩

/-- Settles O36: nibble 0000 and the invalid nibbles have an empty REQ set; only the invalid ones are logged. -/
theorem noneRowsOpenAllEight : Obligations.NoneRowsOpenAllEight := by
  unfold Obligations.NoneRowsOpenAllEight
  intro j x y b1 b2 s htable
  refine ⟨exec_rowOfBits rfl rfl rfl rfl htable, exec_rowOfBits rfl ?udReq rfl ?udInvalid htable,
    exec_rowOfBits rfl ?lrReq rfl ?lrInvalid htable⟩
  all_goals cases x <;> cases y <;> rfl

/-- A change row that answers a next state made the calls of its snapshot, whatever the table. -/
theorem exec_changeRow_next {i : Instr} {j : JoyId} {snap : Snapshot} {s t : State}
    (hrow : rowSnapshot i = some (j, snap)) (h : exec i s = .next t) : joyChange j snap s = .next t := by
  obtain ⟨m, hexec⟩ := exec_changeRow hrow s
  rw [hexec] at h
  exact (whenSelected_eq_next.1 h).2

theorem openCalls_level {cfg : Configuration} {j : JoyId} {c : DirCase} {k : DriverCall} (h : k ∈ openCalls cfg j c) :
    k.1 = false := by
  obtain ⟨n, -, rfl⟩ := List.mem_map.1 h
  rfl

theorem closeCalls_level {cfg : Configuration} {j : JoyId} {c : DirCase} {k : DriverCall} (h : k ∈ closeCalls cfg j c) :
    k.1 = true := by
  obtain ⟨n, -, rfl⟩ := List.mem_map.1 h
  rfl

/-- The open and the close phase make one call for each direction name (R146). -/
theorem directionCalls_length (cfg : Configuration) (j : JoyId) (c : DirCase) :
    (openCalls cfg j c ++ closeCalls cfg j c).length = 8 := by
  rw [List.length_append, openCalls, closeCalls, List.length_map, List.length_map]
  cases c <;> rfl

/-- Settles O39: the open phase holds no close and comes before the close phase, which holds no open. -/
theorem everyChangeOpensBeforeItCloses : Obligations.EveryChangeOpensBeforeItCloses := by
  unfold Obligations.EveryChangeOpensBeforeItCloses
  intro i j snap s t hrow hnext
  have htrace : t.trace = s.trace ++ (joyCalls s.cfg j snap).map traceEntry := by
    rw [(joyChange_next (exec_changeRow_next hrow hnext)).2]
    exact afterCalls_trace s _
  refine ⟨[(button1 snap, joyAddr s.cfg j .b1), (button2 snap, joyAddr s.cfg j .b2)].map traceEntry,
    (openCalls s.cfg j (dirCase (nibble snap)) ++ closeCalls s.cfg j (dirCase (nibble snap))).map traceEntry,
    ?trace, rfl, ?length, ?order⟩
  case trace => rw [htrace, joyCalls, List.append_assoc, List.append_assoc, List.map_append]
  case length => rw [List.length_map, directionCalls_length]
  case order =>
    rw [List.pairwise_map, List.pairwise_append]
    refine ⟨List.pairwise_of_forall_mem_list fun c hc _ _ hon => ?opens,
      List.pairwise_of_forall_mem_list fun _ _ d hd _ => closeCalls_level hd, fun _ _ d hd _ => closeCalls_level hd⟩
    case opens =>
      change c.1 = true at hon
      rw [openCalls_level hc] at hon
      cases hon

/-! Cuts of the change branch's calls. -/

/-- The calls of the buttons and of the open phase, and those of the close phase. -/
theorem changeCalls_eq_append (cfg : Configuration) (j : JoyId) (snap : Snapshot) (opens closes : List JoyName) :
    changeCalls cfg j snap opens closes = changeCalls cfg j snap opens [] ++ nameCalls cfg j true closes := by
  rw [changeCalls, changeCalls, nameCalls, nameCalls, nameCalls, List.map_nil, List.append_nil]

section Cut

variable {cfg : Configuration} {j : JoyId} {n : JoyName}

/-- Before the close phase the only calls on a direction's own crosspoint open it. -/
theorem changeCalls_opens_level (hn : n ∈ dirNames) (hfree : ∀ m, m ≠ n → joyCell cfg j m ≠ joyCell cfg j n)
    (snap : Snapshot) (opens : List JoyName) :
    ∀ k ∈ changeCalls cfg j snap opens [], addrCell k.2 = joyCell cfg j n → k.1 = false := by
  have hbutton : JoyName.b1 ≠ n ∧ JoyName.b2 ≠ n := by
    revert hn
    cases n <;> decide
  intro k hk hcell
  simp only [changeCalls, nameCalls, List.map_nil, List.append_nil, List.mem_append, List.mem_cons, List.not_mem_nil,
    or_false, List.mem_map] at hk
  rcases hk with (rfl | rfl) | ⟨m, -, rfl⟩
  · exact absurd hcell (hfree _ hbutton.1)
  · exact absurd hcell (hfree _ hbutton.2)
  · rfl

/-- A cut inside the first two phases closes no direction. -/
theorem closed_before_of_cut_in_opens (hn : n ∈ dirNames) (hfree : ∀ m, m ≠ n → joyCell cfg j m ≠ joyCell cfg j n)
    {snap : Snapshot} {opens : List JoyName} {k : Nat} {v : Bool}
    (h : lastWrite ((changeCalls cfg j snap opens []).take k) (joyCell cfg j n) v = true) : v = true := by
  have hlevel : ∀ c ∈ (changeCalls cfg j snap opens []).take k, addrCell c.2 = joyCell cfg j n → c.1 = false :=
    fun c hc => changeCalls_opens_level hn hfree snap opens c (List.mem_of_mem_take hc)
  rcases (lastWrite_of_level hlevel v).1 with hopen | hsame
  · rw [h] at hopen
    cases hopen
  · exact hsame.symm.trans h

/-- After the first two phases only a name to be closed can be closed. -/
theorem mem_closes_of_cut_in_closes (hn : n ∈ dirNames) (hfree : ∀ m, m ≠ n → joyCell cfg j m ≠ joyCell cfg j n)
    {snap : Snapshot} {closes : List JoyName} {k : Nat} {v : Bool}
    (h : lastWrite (changeCalls cfg j snap (namesOutside closes) [] ++ (nameCalls cfg j true closes).take k)
      (joyCell cfg j n) v = true) : n ∈ closes := by
  by_contra hout
  have hmem : n ∈ namesOutside closes := mem_namesOutside.2 ⟨hn, hout⟩
  have hopened := (lastWrite_of_level (changeCalls_opens_level hn hfree snap (namesOutside closes)) v).2
    ⟨_, mem_changeCalls_of_mem_opens hmem, rfl⟩
  have hothers : ∀ c ∈ (nameCalls cfg j true closes).take k, addrCell c.2 = joyCell cfg j n → c.1 = false := by
    intro c hc hcell
    obtain ⟨m, hm, rfl⟩ := List.mem_map.1 (List.mem_of_mem_take hc)
    exact absurd hcell (hfree m fun heq => hout (heq ▸ hm))
  rw [lastWrite_append, hopened] at h
  rcases (lastWrite_of_level hothers false).1 with hopen | hopen <;>
  · rw [hopen] at h
    cases h

/-- Two directions that no case closes together are not both closed at any cut of the change branch, where they were not both
closed before. -/
theorem not_both_closed_at_cut {m : JoyName} (hm : m ∈ dirNames) (hn : n ∈ dirNames)
    (hfreem : ∀ a, a ≠ m → joyCell cfg j a ≠ joyCell cfg j m) (hfreen : ∀ a, a ≠ n → joyCell cfg j a ≠ joyCell cfg j n)
    (hopposed : ∀ c, ¬(m ∈ req c ∧ n ∈ req c)) {s t : State} {snap : Snapshot} {k : Nat}
    (hbefore : ¬(s.closed (joyCell cfg j m) = true ∧ s.closed (joyCell cfg j n) = true))
    (h : runCalls ((joyCalls cfg j snap).take k) s = .next t) :
    ¬(t.closed (joyCell cfg j m) = true ∧ t.closed (joyCell cfg j n) = true) := by
  rw [(runCalls_next h).2, afterCalls_closed, afterCalls_closed, joyCalls_eq_changeCalls, changeCalls_eq_append,
    List.take_append]
  rintro ⟨hm', hn'⟩
  by_cases hk : k ≤ (changeCalls cfg j snap (namesOutside (req (dirCase (nibble snap)))) []).length
  case pos =>
    rw [Nat.sub_eq_zero_of_le hk, List.take_zero, List.append_nil] at hm' hn'
    exact hbefore ⟨closed_before_of_cut_in_opens hm hfreem hm', closed_before_of_cut_in_opens hn hfreen hn'⟩
  case neg =>
    rw [List.take_of_length_le (by omega)] at hm' hn'
    exact hopposed _ ⟨mem_closes_of_cut_in_closes hm hfreem hm', mem_closes_of_cut_in_closes hn hfreen hn'⟩

end Cut

/-- Settles O40: no case of REQ holds both of two opposed directions. -/
theorem noOpposedDirectionsBothClosed : Obligations.NoOpposedDirectionsBothClosed := by
  unfold Obligations.NoOpposedDirectionsBothClosed
  intro j snap s t k hfree hud hlr hrun
  constructor
  case left =>
    exact not_both_closed_at_cut (by decide) (by decide) (hfree .u (by decide)) (hfree .d (by decide))
      (fun c => by cases c <;> decide) hud hrun
  case right =>
    exact not_both_closed_at_cut (by decide) (by decide) (hfree .l (by decide)) (hfree .r (by decide))
      (fun c => by cases c <;> decide) hlr hrun

end Sys2Proof

/-! ### Boot (spec/70 R175): the state RESET leaves -/

namespace Sys2Proof

open Machine

/-- What RESET leaves of a state with a well-formed configuration (R41). -/
def bootState (s : State) : State :=
  { State.afterBoot s.cfg with joyRaw := s.joyRaw, sched := s.sched, powerUps := s.powerUps + 1 }

/-- MATRIX_RESET leaves an open array (R89). -/
theorem afterCalls_matrixCalls_xp (s : State) : (afterCalls s matrixCalls).xp = Vector.replicate 64 false := by
  refine Vector.ext fun i hi => ?_
  have hclosed := (afterCalls_closed s matrixCalls (BitVec.ofNat 6 i)).trans (lastWrite_matrixCalls _ _)
  simp only [State.closed, BitVec.toNat_ofNat, Nat.mod_eq_of_lt (show i < 2 ^ 6 from hi)] at hclosed
  rw [hclosed, Vector.getElem_replicate]

theorem boot_eq {s : State} (h : cfgWellFormed s.cfg = true) : boot s = .next (bootState s) := by
  have hout : (initialValues s).out = quietWires := rfl
  have htrace : (initialValues s).trace = [] := rfl
  have hcalls : matrixResetOp (initialValues s) = .next (afterCalls (initialValues s) matrixCalls) :=
    exec_matrixReset (initialValues s)
  simp only [boot, failedCheck_none.2 h, hcalls, andThen_next]
  rw [afterCalls_frame, afterCalls_matrixCalls_xp, afterCalls_out_quiet _ _ hout, afterCalls_trace, htrace]
  rfl

/-- RESET answers a next state only with a well-formed configuration. -/
theorem boot_next {s t : State} (h : boot s = .next t) : cfgWellFormed s.cfg = true ∧ t = bootState s := by
  cases hcheck : failedCheck s.cfg with
  | some c =>
    rw [boot_of_failedCheck hcheck] at h
    cases h
  | none =>
    have hwf := failedCheck_none.1 hcheck
    rw [boot_eq hwf] at h
    cases h
    exact ⟨hwf, rfl⟩

/-- Settles O46: RESET gives every field its initial value, and MATRIX_RESET the array, the wires and the trace. -/
theorem resetLeavesTheBootState : Obligations.ResetLeavesTheBootState := by
  unfold Obligations.ResetLeavesTheBootState
  intro s hwf
  refine ⟨boot_eq hwf, fun cfg => ⟨rfl, rfl, rfl, rfl, rfl, rfl, rfl, rfl, fun c => ?opened, ?calls, rfl, rfl, rfl, rfl⟩⟩
  case opened => exact Vector.getElem_replicate _
  case calls => exact List.length_map _ |>.trans matrixCalls_length

end Sys2Proof

/-! ### What a step can do: the elementary changes that every operation and every step is made of -/

namespace Sys2Proof

open Machine Relation

/-- An elementary change of the ISR agent's operations (R104 to R109, R95). -/
inductive SerialChange : State → State → Prop
  | sample {s : State} (v : Bit) (hlo : 1 ≤ s.dec.pos.toNat) (hhi : s.dec.pos.toNat ≤ 10) :
      SerialChange s { s with dec := sampled s.dec v }
  | push {b : Byte} {s t : State} (h : bufPush b s = .next t) : SerialChange s t
  | log (s : State) (e : Event) : SerialChange s (s.emit e)
  | endFrame (s : State) : SerialChange s (frameReset s)

/-- An elementary change of the POLL agent's operations; the prefix flags are written only where `flags` allows it. -/
inductive PolledChange (flags : Bool) : State → State → Prop
  | pop {s t : State} {r : Option Byte} (h : bufPop s = .next (r, t)) : PolledChange flags s t
  | call (s : State) {c : DriverCall} (h : isSentinel c.2 = false) : PolledChange flags s (afterCall s c)
  | snapshot (s : State) (p : PerJoy) : PolledChange flags s { s with joyPrev := p }
  | log (s : State) (e : Event) : PolledChange flags s (s.emit e)
  | slot (s : State) : PolledChange flags s (nextSlot s)
  | setFlags (s : State) (f : Flags) (h : flags = true) : PolledChange flags s { s with ip := f }

/-- An elementary change of a step. -/
inductive Change : State → State → Prop
  | serial {s t : State} (h : SerialChange s t) : Change s t
  | polled {s t : State} (h : PolledChange true s t) : Change s t
  | boot (s : State) (h : cfgWellFormed s.cfg = true) : Change s (bootState s)
  | lines (s : State) (j : JoyId) (raw : BitVec 6) : Change s (setLines j raw s)
  | sched (s : State) (l : List Item) : Change s { s with sched := l }

/-- A property that no change of `r` destroys. -/
theorem holds_of_changes {r : State → State → Prop} {P : State → Prop} (hr : ∀ s t, r s t → P s → P t) {s t : State}
    (h : ReflTransGen r s t) (hs : P s) : P t := by
  induction h with
  | refl => exact hs
  | tail _ hlast ih => exact hr _ _ hlast ih

/-! Serial operations. -/

theorem changes_endFrame {v : Bit} {s t : State} (h : endFrame v s = .next t) : ReflTransGen SerialChange s t := by
  cases haccept : Decoder.accepts { s.dec with stop := v } with
  | true =>
    rw [endFrame_of_accepts haccept] at h
    obtain ⟨p, hpush, ht⟩ := andThen_eq_next.1 h
    cases ht
    exact (ReflTransGen.single (.push hpush)).tail (.endFrame p)
  | false =>
    rw [endFrame_of_rejects haccept] at h
    cases h
    exact (ReflTransGen.single (.log s _)).tail (.endFrame _)

/-- The selected EDGE row of a position before 11 is one sample. -/
theorem changes_earlyEdge {v : Bit} {s t : State} {i : Instr} (hi : decodeEdge s.dec.pos.toNat v = .ok i)
    (hlo : 1 ≤ s.dec.pos.toNat) (hhi : s.dec.pos.toNat ≤ 10) (h : exec i s = .next t) : ReflTransGen SerialChange s t := by
  obtain ⟨i', hi', -, hexec⟩ := exec_earlyEdge v hlo hhi
  cases hi.symm.trans hi'
  rw [hexec] at h
  cases h
  exact ReflTransGen.single (.sample v hlo hhi)

theorem changes_of_isSerial {s t : State} : ∀ {i : Instr}, isSerial i = true → exec i s = .next t →
    ReflTransGen SerialChange s t
  | .edgeStart v, _, h => by
    have hpos := beq_iff_eq.1 (whenSelected_eq_next.1 h).1
    exact changes_earlyEdge (v := v) (by rw [hpos]; rfl) (by rw [hpos]; decide) (by rw [hpos]; decide) h
  | .edgeData k v, _, h => by
    have hpos := beq_iff_eq.1 (whenSelected_eq_next.1 h).1
    exact changes_earlyEdge (v := v) (by rw [hpos, decodeEdge_data]) (by omega) (by omega) h
  | .edgeParity v, _, h => by
    have hpos := beq_iff_eq.1 (whenSelected_eq_next.1 h).1
    exact changes_earlyEdge (v := v) (by rw [hpos]; rfl) (by rw [hpos]; decide) (by rw [hpos]; decide) h
  | .edgeStop v, _, h => changes_endFrame (whenSelected_eq_next.1 h).2
  | .frameAccept d p, _, h => by
    obtain ⟨u, hpush, ht⟩ := andThen_eq_next.1 (whenSelected_eq_next.1 h).2
    cases ht
    exact (ReflTransGen.single (.push hpush)).tail (.endFrame u)
  | .frameReject w, _, h => by
    cases (whenSelected_eq_next.1 h).2
    exact (ReflTransGen.single (.log s _)).tail (.endFrame _)
  | .push b, _, h => ReflTransGen.single (.push h)

/-! Polled operations. -/

section Polled

variable {flags : Bool} {s t : State}

theorem changes_runCalls {cs : List DriverCall} (h : runCalls cs s = .next t) : ReflTransGen (PolledChange flags) s t := by
  obtain ⟨hreal, rfl⟩ := runCalls_next h
  clear h
  induction cs generalizing s with
  | nil => exact .refl
  | cons c rest ih =>
    obtain ⟨hc, hrest⟩ := List.forall_mem_cons.1 hreal
    exact ReflTransGen.head (.call s hc) (ih hrest)

theorem changes_joyChange {j : JoyId} {snap : Snapshot} (h : joyChange j snap s = .next t) :
    ReflTransGen (PolledChange flags) s t := by
  obtain ⟨u, hcalls, ht⟩ := andThen_eq_next.1 h
  cases ht
  refine ReflTransGen.tail ?_ (.snapshot _ _)
  split
  · exact (changes_runCalls hcalls).tail (.log u _)
  · exact changes_runCalls hcalls

theorem changes_joyPoll {j : JoyId} {snap : Snapshot} (h : joyPoll j snap s = .next t) :
    ReflTransGen (PolledChange flags) s t := by
  unfold joyPoll at h
  split at h
  · cases h
    exact .refl
  · exact changes_joyChange h

theorem changes_interpResolveOp {e : ScanEntry} (h : interpResolveOp e s = .next t) :
    ReflTransGen (PolledChange true) s t := by
  obtain ⟨u, hcalls, ht⟩ := andThen_eq_next.1 h
  cases ht
  exact (changes_runCalls hcalls).tail (.setFlags u _ rfl)

theorem changes_interpUnrecognizedOp {b : Byte} (h : interpUnrecognizedOp b s = .next t) :
    ReflTransGen (PolledChange true) s t := by
  cases h
  exact (ReflTransGen.single (.setFlags s _ rfl)).tail (.log _ _)

theorem changes_setFlags {f : Flags} (h : (.next { s with ip := f } : Res State) = .next t) :
    ReflTransGen (PolledChange true) s t := by
  cases h
  exact ReflTransGen.single (.setFlags s f rfl)

theorem changes_interpByte {b : Byte} (h : interpByte b s = .next t) : ReflTransGen (PolledChange true) s t := by
  unfold interpByte at h
  split at h
  · exact changes_setFlags h
  · exact changes_setFlags h
  · exact changes_interpResolveOp h
  · exact changes_interpUnrecognizedOp h

theorem changes_interp (h : interp s = .next t) : ReflTransGen (PolledChange true) s t := by
  obtain ⟨⟨r, u⟩, hpop, ht⟩ := andThen_eq_next.1 h
  refine ReflTransGen.head (.pop hpop) ?_
  cases r with
  | none => cases ht; exact .refl
  | some b => exact changes_interpByte ht

theorem changes_dispatchOp {run : State → Res State} (hrun : ∀ {u}, run s = .next u → ReflTransGen (PolledChange flags) s u)
    (h : dispatchOp run s = .next t) : ReflTransGen (PolledChange flags) s t := by
  obtain ⟨u, hu, ht⟩ := andThen_eq_next.1 h
  cases ht
  exact (hrun hu).tail (.slot u)

theorem changes_setSwitch {on : Bool} {a : SwitchAddress} (h : setSwitch on a s = .next t) :
    ReflTransGen (PolledChange flags) s t :=
  changes_runCalls (cs := [(on, a)]) (andThen_eq_next.2 ⟨t, h, rfl⟩)

theorem changes_unchanged (h : (.next s : Res State) = .next t) : ReflTransGen (PolledChange flags) s t := by
  cases h
  exact .refl

theorem changes_of_isPolled : ∀ {i : Instr}, isPolled i = true → exec i s = .next t →
    ReflTransGen (PolledChange (mayWriteFlags i)) s t
  | .pop, _, h => by
    obtain ⟨⟨r, u⟩, hpop, ht⟩ := andThen_eq_next.1 h
    cases ht
    exact ReflTransGen.single (.pop hpop)
  | .interpEmpty, _, h => changes_unchanged (whenSelected_eq_next.1 h).2
  | .interpRel, _, h => changes_setFlags h
  | .interpExtA, _, h => changes_setFlags h
  | .interpExtB, _, h => changes_setFlags h
  | .interpResolve _, _, h => changes_interpResolveOp (whenSelected_eq_next.1 h).2
  | .interpUnrecognized _, _, h => changes_interpUnrecognizedOp (whenSelected_eq_next.1 h).2
  | .joypollSame .., _, h => changes_unchanged (whenSelected_eq_next.1 h).2
  | .joypollNone .., _, h | .joypollNoneInvalidUd .., _, h | .joypollNoneInvalidLr .., _, h | .joypollU .., _, h
  | .joypollD .., _, h | .joypollL .., _, h | .joypollR .., _, h | .joypollUl .., _, h | .joypollUr .., _, h
  | .joypollDr .., _, h | .joypollDl .., _, h => changes_joyChange (exec_changeRow_next rfl h)
  | .setswitchOn _, _, h | .setswitchOff _, _, h | .setswitchSentinel .., _, h => changes_setSwitch h
  | .matrixReset, _, h => changes_runCalls h
  | .dispatchJoyL, _, h => changes_dispatchOp changes_joyPoll (whenSelected_eq_next.1 h).2
  | .dispatchJoyR, _, h => changes_dispatchOp changes_joyPoll (whenSelected_eq_next.1 h).2
  | .dispatchInterp, _, h => changes_dispatchOp changes_interp (whenSelected_eq_next.1 h).2

end Polled

/-! Steps. -/

theorem PolledChange.mono {flags : Bool} {s t : State} (h : PolledChange flags s t) : PolledChange true s t := by
  cases h with
  | pop h => exact .pop h
  | call h => exact .call s h
  | snapshot p => exact .snapshot s p
  | log e => exact .log s e
  | slot => exact .slot s
  | setFlags f => exact .setFlags s f rfl

/-- Every operation is the ISR agent's, the POLL agent's or RESET (R3, R169). -/
theorem serial_or_polled_or_reset (i : Instr) : isSerial i = true ∨ isPolled i = true ∨ i = .reset := by
  cases i with
  | reset => exact .inr (.inr rfl)
  | edgeStart | edgeData | edgeParity | edgeStop | frameAccept | frameReject | push => exact .inl rfl
  | _ => exact .inr (.inl rfl)

/-- An operation that answers a next state is a sequence of elementary changes. -/
theorem changes_of_exec {i : Instr} {s t : State} (h : exec i s = .next t) : ReflTransGen Change s t := by
  rcases serial_or_polled_or_reset i with hserial | hpolled | rfl
  · exact ReflTransGen.mono (fun _ _ hc => Change.serial hc) _ _ (changes_of_isSerial hserial h)
  · exact ReflTransGen.mono (fun _ _ hc => Change.polled hc.mono) _ _ (changes_of_isPolled hpolled h)
  · obtain ⟨hwf, rfl⟩ := boot_next h
    exact ReflTransGen.single (.boot s hwf)

theorem changes_runDecoded {r : Except DecodeError Instr} {s t : State} (h : runDecoded r s = .next t) :
    ReflTransGen Change s t := by
  unfold runDecoded at h
  split at h
  · exact changes_of_exec h
  · cases h

theorem changes_takeEdge {v : Bit} {s t : State} (h : takeEdge v s = .next t) : ReflTransGen Change s t := by
  unfold takeEdge at h
  split at h
  · exact changes_runDecoded h
  · cases h
    exact .refl

theorem changes_takeItem {s t : State} : ∀ {it : Item}, takeItem it s = .next t → ReflTransGen Change s t
  | .edge v, h => changes_takeEdge h
  | .lostEdge v, h => by
    change takeLostEdge v s = _ at h
    unfold takeLostEdge at h
    split at h
    · cases h
      exact .refl
    · exact changes_takeEdge h
  | .joy j raw, h => by
    cases h
    exact ReflTransGen.single (.lines s j raw)
  | .poll, h => changes_of_exec h
  | .reset, h => changes_of_exec (i := .reset) h
  | .word w, h => changes_runDecoded h

/-- A step that answers a next state is a sequence of elementary changes. -/
theorem changes_of_step {s t : State} (h : step s = .next t) : ReflTransGen Change s t := by
  have hrun := runSchedule_of_step_next h
  unfold runSchedule at hrun
  split at hrun
  · exact changes_of_exec hrun
  · next it rest _ => exact ReflTransGen.head (.sched s rest) (changes_takeItem hrun)

end Sys2Proof

/-! ### What every step keeps: the array and its trace (spec/40), the invariant of a running core, and the prefix flags -/

namespace Sys2Proof

open Machine Relation

/-- POP changes the head, and nothing else (R97). -/
theorem bufPop_frame {s t : State} {r : Option Byte} (h : bufPop s = .next (r, t)) :
    t = { s with buf := { s.buf with head := t.buf.head } } := by
  rcases bufPop_next h with ⟨-, heq⟩ | ⟨-, -, heq⟩ <;> (cases heq; rfl)

/-! The array and the trace. -/

/-- The crosspoints are what the recorded calls lead to (R85, R34). -/
def TraceTrue (s : State) : Prop := s.xp = replay s.trace

theorem traceTrue_afterCall {s : State} (h : TraceTrue s) (c : DriverCall) : TraceTrue (afterCall s c) := by
  rw [TraceTrue, replay, afterCall_trace, List.foldl_append, afterCall_xp, h]
  rfl

theorem traceTrue_afterCalls {s : State} (h : TraceTrue s) (cs : List DriverCall) : TraceTrue (afterCalls s cs) := by
  induction cs generalizing s with
  | nil => exact h
  | cons c rest ih => exact ih (traceTrue_afterCall h c)

/-- The 64 calls of MATRIX_RESET lead to an open array. -/
theorem replay_matrixCalls : replay (matrixCalls.map traceEntry) = Vector.replicate 64 false := by
  have hopen : TraceTrue { State.reset with trace := [], xp := Vector.replicate 64 false } := rfl
  have hafter := traceTrue_afterCalls hopen matrixCalls
  rw [TraceTrue, afterCalls_matrixCalls_xp, afterCalls_trace] at hafter
  exact hafter.symm

theorem PolledChange.traceTrue {flags : Bool} {s t : State} (hc : PolledChange flags s t) (h : TraceTrue s) :
    TraceTrue t := by
  cases hc with
  | pop hpop => rw [bufPop_frame hpop]; exact h
  | call => exact traceTrue_afterCall h _
  | snapshot | log | slot | setFlags => exact h

theorem SerialChange.traceTrue {s t : State} (hc : SerialChange s t) (h : TraceTrue s) : TraceTrue t := by
  cases hc with
  | push hpush => rw [bufPush_frame hpush]; exact h
  | sample | log | endFrame => exact h

theorem Change.traceTrue {s t : State} (hc : Change s t) (h : TraceTrue s) : TraceTrue t := by
  cases hc with
  | serial hs => exact hs.traceTrue h
  | polled hp => exact hp.traceTrue h
  | boot => exact replay_matrixCalls.symm
  | lines | sched => exact h

/-- Settles O58: only driver calls and RESET write the array or the trace, and they write both alike. -/
theorem everyStepKeepsTheTraceTrue : Obligations.EveryStepKeepsTheTraceTrue := by
  unfold Obligations.EveryStepKeepsTheTraceTrue
  exact ⟨replay_matrixCalls.symm,
    fun _ _ htrue hstep => holds_of_changes (P := TraceTrue) (fun _ _ hc => hc.traceTrue) (changes_of_step hstep) htrue⟩

/-! The decoder's part of the invariant. -/

/-- Setting one more of `n` flags counts one more. -/
theorem countP_update {f : Nat → Bool} {k n : Nat} (hk : k < n) (hf : f k = false) (v : Bool) :
    (List.range n).countP (fun i => if i = k then v else f i) = (List.range n).countP f + v.toNat := by
  induction n with
  | zero => omega
  | succ n ih =>
    rw [List.range_succ, List.countP_append, List.countP_append, List.countP_singleton, List.countP_singleton]
    rcases Nat.lt_succ_iff_lt_or_eq.1 hk with hlt | rfl
    · rw [ih hlt, if_neg (show ¬n = k by omega)]
      omega
    · have hsame : (List.range k).countP (fun i => if i = k then v else f i) = (List.range k).countP f :=
        List.countP_congr fun i hi => by rw [if_neg (by have := List.mem_range.1 hi; omega)]
      rw [hsame, if_pos rfl, hf]
      cases v <;> rfl

theorem popcount_setBit {x : Byte} {k : Nat} (hk : k < 8) (hx : x.getLsbD k = false) (v : Bit) :
    popcount (setBit x k v) = popcount x + v.toNat := by
  rw [popcount, funext (setBit_getLsbD x hk v), countP_update hk hx]
  rfl

theorem popcount_le (x : Byte) : popcount x ≤ 8 := (List.countP_le_length).trans (List.length_range).le

theorem shiftRight_eq_zero_iff {x : Byte} {n : Nat} : x >>> n = 0#8 ↔ ∀ i, n ≤ i → x.getLsbD i = false := by
  constructor
  · intro h i hi
    have hbit := congrArg (fun y : Byte => y.getLsbD (i - n)) h
    simpa [BitVec.getLsbD_ushiftRight, show n + (i - n) = i by omega] using hbit
  · intro h
    refine BitVec.eq_of_getLsbD_eq fun i _ => ?_
    rw [BitVec.getLsbD_ushiftRight, h (n + i) (by omega)]
    simp

theorem countSample_toNat {par : BitVec 4} (h : par.toNat ≤ 8) (v : Bit) :
    (countSample par v).toNat = par.toNat + v.toNat := by
  cases v
  · rfl
  · exact toNat_add_one (by omega)

/-- What `decoderOk` says of a decoder. -/
theorem decoderOk_iff {d : Decoder} : decoderOk d = true ↔ 1 ≤ d.pos.toNat ∧ d.pos.toNat ≤ 11 ∧
    d.data >>> (d.pos.toNat - 2) = 0#8 ∧
    (d.par.toNat = popcount d.data ∨ d.pos = 11#4 ∧ d.par.toNat = popcount d.data + 1) := by
  simp only [decoderOk, Bool.and_eq_true, Bool.or_eq_true, decide_eq_true_eq, beq_iff_eq, and_assoc]

theorem decoderOk_initial : decoderOk ⟨1#4, 0#8, false, false, 0#4⟩ = true := by decide

/-- A sample keeps the decoder's invariant (R20, R21, R24). -/
theorem decoderOk_sampled {d : Decoder} (h : decoderOk d = true) (hhi : d.pos.toNat ≤ 10) (v : Bit) :
    decoderOk (sampled d v) = true := by
  obtain ⟨hlo, -, hdata, hpar⟩ := decoderOk_iff.1 h
  have hpar : d.par.toNat = popcount d.data := by
    refine hpar.resolve_right fun ⟨hpos, _⟩ => ?_
    rw [hpos] at hhi
    exact absurd hhi (by decide)
  have hcount := countSample_toNat (hpar ▸ popcount_le d.data : d.par.toNat ≤ 8) v
  have hbits := shiftRight_eq_zero_iff.1 hdata
  rcases early_cases hlo hhi with h1 | h10 | ⟨h2, h9⟩
  · -- the start bit
    rw [sampled_first v h1]
    rw [h1] at hdata
    exact decoderOk_iff.2 ⟨(by decide : 1 ≤ (2#4).toNat), (by decide : (2#4).toNat ≤ 11), hdata, .inl hpar⟩
  · -- the parity bit
    rw [sampled_parity v h10]
    refine decoderOk_iff.2 ⟨(by decide : 1 ≤ (11#4).toNat), (by decide : (11#4).toNat ≤ 11),
      shiftRight_eq_zero_iff.2 fun i hi => BitVec.getLsbD_of_ge _ _ ((by decide : 8 ≤ (11#4).toNat - 2).trans hi), ?_⟩
    cases v with
    | false => exact .inl (hcount.trans hpar)
    | true => exact .inr ⟨rfl, hcount.trans (congrArg (· + 1) hpar)⟩
  · -- a data bit
    have hpos' : (d.pos + 1#4).toNat = d.pos.toNat + 1 := toNat_add_one (by omega)
    rw [sampled_data v h2 h9]
    refine decoderOk_iff.2 ⟨?_, ?_, shiftRight_eq_zero_iff.2 fun i hi => ?_, .inl ?_⟩
    · rw [hpos']; omega
    · rw [hpos']; omega
    · rw [hpos'] at hi
      rw [setBit_getLsbD _ (by omega), if_neg (by omega), hbits i (by omega)]
    · rw [popcount_setBit (by omega) (hbits _ le_rfl), ← hpar]
      exact hcount

/-! The invariant. -/

theorem cap_pos_of_wellFormed {cfg : Configuration} (h : cfgWellFormed cfg = true) : 1 ≤ cfg.cap :=
  of_decide_eq_true (passes_of_wellFormed h .cap)

theorem traceOk_append {s : State} (h : traceOk s = true) {cs : List DriverCall} (hcs : ∀ c ∈ cs, isSentinel c.2 = false) :
    (s.trace ++ cs.map traceEntry).all (fun c => !isSentinel c.addr && c.sel == selWord c.on c.addr) = true := by
  rw [List.all_append, Bool.and_eq_true, List.all_map]
  refine ⟨h, List.all_eq_true.2 fun c hc => ?_⟩
  simp [traceEntry, hcs c hc]

/-- The boot state of a well-formed configuration meets the invariant (R41). -/
theorem inv_bootState {s : State} (h : cfgWellFormed s.cfg = true) : (bootState s).Inv := by
  have hpos : 0 < slotCount s.cfg := Nat.succ_pos _
  have hcount : (bootState s).count = 0 := (ring_count_eq_zero (h := 0) (t := 0) hpos hpos).2 rfl
  have hbuf : bufferOk (bootState s) = true :=
    bufferOk_iff.2 ⟨hpos, hpos, rfl, by simp [bootState, State.afterBoot], by simp [hcount]⟩
  have htrace : traceOk (bootState s) = true :=
    traceOk_append (s := { bootState s with trace := [] }) rfl matrixCalls_noSentinel
  exact ⟨decoderOk_initial, hbuf, htrace, rfl, rfl, rfl, rfl, h⟩

theorem SerialChange.inv {s t : State} (hc : SerialChange s t) (h : s.Inv) : t.Inv := by
  obtain ⟨hdec, hbuf, htrace, hout, hirq, hf, hr, hwf⟩ := h
  cases hc with
  | sample v _ hhi => exact ⟨decoderOk_sampled hdec hhi v, hbuf, htrace, hout, hirq, hf, hr, hwf⟩
  | push hpush =>
    obtain ⟨-, u, hu, hok, -⟩ := pushIsDropOldestOnTheContents _ s hbuf (cap_pos_of_wellFormed hwf)
    cases hpush.symm.trans hu
    rw [bufPush_frame hpush] at hok ⊢
    exact ⟨hdec, hok, htrace, hout, hirq, hf, hr, hwf⟩
  | log => exact ⟨hdec, hbuf, htrace, hout, hirq, hf, hr, hwf⟩
  | endFrame => exact ⟨decoderOk_initial, hbuf, htrace, hout, hirq, hf, hr, hwf⟩

theorem PolledChange.inv {flags : Bool} {s t : State} (hc : PolledChange flags s t) (h : s.Inv) : t.Inv := by
  obtain ⟨hdec, hbuf, htrace, hout, hirq, hf, hr, hwf⟩ := h
  cases hc with
  | pop hpop =>
    obtain ⟨u, hu, -, hok, -⟩ := bufPop_contents hbuf
    cases hpop.symm.trans hu
    rw [bufPop_frame hpop] at hok ⊢
    exact ⟨hdec, hok, htrace, hout, hirq, hf, hr, hwf⟩
  | @call c hreal =>
    have htrace' : traceOk (afterCall s c) = true :=
      traceOk_append htrace (cs := [c]) fun k hk => List.mem_singleton.1 hk ▸ hreal
    exact ⟨hdec, hbuf, htrace', rfl, hirq, hf, hr, hwf⟩
  | snapshot | log | slot | setFlags => exact ⟨hdec, hbuf, htrace, hout, hirq, hf, hr, hwf⟩

theorem Change.inv {s t : State} (hc : Change s t) (h : s.Inv) : t.Inv := by
  cases hc with
  | serial hs => exact hs.inv h
  | polled hp => exact hp.inv h
  | boot hwf => exact inv_bootState hwf
  | lines | sched => exact h

/-- Settles O54: the reset state is the boot state of EXCFG, which is well-formed, but for its free fields. -/
theorem resetMeetsTheInvariant : Obligations.ResetMeetsTheInvariant := by
  unfold Obligations.ResetMeetsTheInvariant
  exact inv_bootState (s := State.reset) (by decide)

/-- Settles O55: every elementary change of a step keeps the invariant. -/
theorem everyStepKeepsTheInvariant : Obligations.EveryStepKeepsTheInvariant := by
  unfold Obligations.EveryStepKeepsTheInvariant
  exact fun _ _ hinv hstep => holds_of_changes (fun _ _ hc => hc.inv) (changes_of_step hstep) hinv

end Sys2Proof

/-! ### What the POLL agent's operations do not see (spec/60 R169, spec/44 R132): the decoder, the log, the other joystick -/

namespace Sys2Proof

open Machine Relation

/-- An action does the same before and after a change `g` of the state: it neither sees nor touches what `g` changes. -/
def Commutes (g : State → State) (o : State → Res State) : Prop := ∀ s, o (g s) = mapNext g (o s)

namespace Commutes

variable {g : State → State}

theorem ofNext {f : State → State} (h : ∀ s, f (g s) = g (f s)) : Commutes g fun s => .next (f s) :=
  fun s => congrArg Host.Outcome.next (h s)

theorem seq {o k : State → Res State} (ho : Commutes g o) (hk : Commutes g k) : Commutes g fun s => andThen (o s) k := by
  intro s
  change andThen (o (g s)) k = mapNext g (andThen (o s) k)
  rw [ho s]
  cases o s with
  | next u => exact hk u
  | fault | refused => rfl

/-- A selector that reads nothing `g` changes. -/
theorem selected {o : State → Res State} {sel : State → Bool} (hsel : ∀ s, sel (g s) = sel s) (m : String)
    (ho : Commutes g o) : Commutes g fun s => whenSelected (sel s) m (o s) := by
  intro s
  change whenSelected (sel (g s)) m (o (g s)) = mapNext g (whenSelected (sel s) m (o s))
  rw [hsel, ho s]
  cases sel s <;> rfl

/-- The action may depend on a value that `g` does not change. -/
theorem ofRead {α : Type} {f : State → α} (hf : ∀ s, f (g s) = f s) {o : α → State → Res State}
    (ho : ∀ a, Commutes g (o a)) : Commutes g fun s => o (f s) s := by
  intro s
  change o (f (g s)) (g s) = mapNext g (o (f s) s)
  rw [hf, ho (f s) s]

theorem setSwitch (hcall : ∀ s c, afterCall (g s) c = g (afterCall s c)) (on : Bool) (a : SwitchAddress) :
    Commutes g (setSwitch on a) := by
  intro s
  cases ha : isSentinel a with
  | true => rw [setSwitch_sentinel ha, setSwitch_sentinel ha]; rfl
  | false => rw [setSwitch_ok ha, setSwitch_ok ha, hcall]; rfl

theorem runCalls (hcall : ∀ s c, afterCall (g s) c = g (afterCall s c)) (cs : List DriverCall) :
    Commutes g (runCalls cs) := by
  induction cs with
  | nil => exact fun _ => rfl
  | cons c rest ih => exact (setSwitch hcall c.1 c.2).seq ih

end Commutes

/-! Changes that one joystick's sampler does not see. -/

/-- A change that touches neither the table nor the previous snapshot of joystick `j`, and that passes through the sampler's
own writes. -/
structure LeavesJoystick (g : State → State) (j : JoyId) : Prop where
  table (s : State) : joyTable (g s).cfg j = joyTable s.cfg j
  prev (s : State) : (g s).joyPrev.get j = s.joyPrev.get j
  call (s : State) (c : DriverCall) : afterCall (g s) c = g (afterCall s c)
  log (s : State) (e : Event) : (g s).emit e = g (s.emit e)
  store (s : State) (p : Snapshot) :
    { g s with joyPrev := (g s).joyPrev.put j p } = g { s with joyPrev := s.joyPrev.put j p }

/-- The change branch reads a joystick's table through its calls only. -/
theorem joyCalls_congr {cfg cfg' : Configuration} {j : JoyId} (h : joyTable cfg j = joyTable cfg' j) (snap : Snapshot) :
    joyCalls cfg j snap = joyCalls cfg' j snap := by
  simp only [joyCalls, openCalls, closeCalls, joyAddr, h]

/-- The end of the change branch: an invalid nibble is logged and the snapshot stored (R136). -/
def storeSnapshot (j : JoyId) (snap : Snapshot) (s : State) : State :=
  if nibbleInvalid (nibble snap) then
    { s.emit (.joyInvalid j snap) with joyPrev := (s.emit (.joyInvalid j snap)).joyPrev.put j snap }
  else { s with joyPrev := s.joyPrev.put j snap }

theorem joyChange_eq_storeSnapshot (j : JoyId) (snap : Snapshot) (s : State) :
    joyChange j snap s = andThen (runCalls (joyCalls s.cfg j snap) s) fun u => .next (storeSnapshot j snap u) := by
  refine congrArg (andThen _) (funext fun u => ?_)
  unfold storeSnapshot
  split <;> rfl

namespace LeavesJoystick

variable {g : State → State} {j : JoyId}

theorem storeSnapshot (h : LeavesJoystick g j) (snap : Snapshot) (s : State) :
    storeSnapshot j snap (g s) = g (Sys2Proof.storeSnapshot j snap s) := by
  unfold Sys2Proof.storeSnapshot
  split
  · rw [h.log, h.store]
  · rw [h.store]

theorem joyChange (h : LeavesJoystick g j) (snap : Snapshot) : Commutes g (joyChange j snap) := by
  have hcalls : Commutes g fun s => Machine.runCalls (joyCalls s.cfg j snap) s :=
    .ofRead (f := fun s => joyCalls s.cfg j snap) (o := Machine.runCalls) (fun s => joyCalls_congr (h.table s) snap)
      (.runCalls h.call)
  rw [funext (joyChange_eq_storeSnapshot j snap)]
  exact hcalls.seq (.ofNext (h.storeSnapshot snap))

theorem joyPoll (h : LeavesJoystick g j) (snap : Snapshot) : Commutes g (joyPoll j snap) := by
  intro s
  unfold Machine.joyPoll
  rw [h.prev]
  split
  · rfl
  · exact h.joyChange snap s

end LeavesJoystick

/-- The mnemonic of a change row is the same in every state. -/
theorem exec_changeRow_eq_fun {i : Instr} {j : JoyId} {snap : Snapshot} (hrow : rowSnapshot i = some (j, snap)) :
    ∃ m, exec i = fun s => whenSelected (snap != s.joyPrev.get j) m (joyChange j snap s) := by
  unfold rowSnapshot at hrow
  split at hrow
  all_goals cases hrow -- the other operations have no row snapshot
  all_goals exact ⟨_, rfl⟩

theorem LeavesJoystick.changeRow {g : State → State} {i : Instr} {j : JoyId} {snap : Snapshot} (h : LeavesJoystick g j)
    (hrow : rowSnapshot i = some (j, snap)) : Commutes g (exec i) := by
  obtain ⟨m, hexec⟩ := exec_changeRow_eq_fun hrow
  rw [hexec]
  exact (h.joyChange snap).selected (sel := fun s => snap != s.joyPrev.get j) (fun s => by rw [h.prev]) m

theorem LeavesJoystick.sameRow {g : State → State} {j : JoyId} (h : LeavesJoystick g j) (snap : Snapshot) :
    Commutes g (exec (.joypollSame j snap)) :=
  Commutes.selected (o := .next) (sel := fun s => snap == s.joyPrev.get j) (fun s => by rw [h.prev]) "JOYPOLL_SAME"
    fun _ => rfl

/-- A JOYPOLL row is JOYPOLL_SAME or a change row. -/
theorem joyOf_cases {i : Instr} {j : JoyId} (h : joyOf i = some j) :
    (∃ snap, i = .joypollSame j snap) ∨ ∃ snap, rowSnapshot i = some (j, snap) := by
  unfold joyOf at h
  split at h
  case h_1 => cases h; exact .inl ⟨_, rfl⟩
  case h_2 =>
    obtain ⟨⟨j', snap⟩, hrow, rfl⟩ := Option.map_eq_some_iff.1 h
    exact .inr ⟨snap, hrow⟩

theorem joyTable_putTable_other {j k : JoyId} (h : j ≠ k) (cfg : Configuration) (t : JoyTable) :
    joyTable (putTable cfg k t) j = joyTable cfg j :=
  match j, k with
  | .l, .r | .r, .l => rfl
  | .l, .l | .r, .r => absurd rfl h

theorem PerJoy.put_comm {j k : JoyId} (h : j ≠ k) (p : PerJoy) (v w : BitVec 6) :
    (p.put k w).put j v = (p.put j v).put k w :=
  match j, k with
  | .l, .r | .r, .l => rfl
  | .l, .l | .r, .r => absurd rfl h

/-- The other joystick's snapshot, lines and table are no part of a sampler's state (R132). -/
theorem leavesJoystick_withJoystick {j k : JoyId} (hne : j ≠ k) (prev raw : BitVec 6) (tbl : JoyTable) :
    LeavesJoystick (fun s => s.withJoystick k prev raw tbl) j where
  table s := joyTable_putTable_other hne s.cfg tbl
  prev _ := PerJoy.get_put_other _ hne.symm prev
  call _ _ := rfl
  log _ _ := rfl
  store s p := congrArg (fun prevs => { s.withJoystick k prev raw tbl with joyPrev := prevs })
    (PerJoy.put_comm hne s.joyPrev p prev)

/-- Settles O41: a JOYPOLL row does not see the other joystick. -/
theorem samplersAreIndependent : Obligations.SamplersAreIndependent := by
  unfold Obligations.SamplersAreIndependent
  intro i j k prev raw tbl s hjoy hne
  have hleaves := leavesJoystick_withJoystick hne prev raw tbl
  rcases joyOf_cases hjoy with ⟨snap, rfl⟩ | ⟨snap, hrow⟩
  · exact hleaves.sameRow snap s
  · exact hleaves.changeRow hrow s

/-! Changes that the dispatcher and the interpreter do not see. -/

/-- A change that no joystick slot sees. -/
structure LeavesDispatcher (g : State → State) : Prop where
  joystick (j : JoyId) : LeavesJoystick g j
  cfg (s : State) : (g s).cfg = s.cfg
  slot (s : State) : (g s).slot = s.slot
  raw (s : State) : (g s).joyRaw = s.joyRaw
  next (s : State) : nextSlot (g s) = g (nextSlot s)

/-- A change that the interpreter does not see either. -/
structure LeavesInterpreter (g : State → State) : Prop extends LeavesDispatcher g where
  buf (s : State) : (g s).buf = s.buf
  ip (s : State) : (g s).ip = s.ip
  setFlags (s : State) (f : Flags) : { g s with ip := f } = g { s with ip := f }
  pop (s : State) : bufPop (g s) = andThen (bufPop s) fun p => .next (p.1, g p.2)

namespace LeavesDispatcher

variable {g : State → State}

theorem component (h : LeavesDispatcher g) (s : State) : (g s).component = s.component := by
  rw [State.component, h.cfg, h.slot]
  rfl

theorem dispatchOp (h : LeavesDispatcher g) {run : State → Res State} (hrun : Commutes g run) :
    Commutes g (dispatchOp run) := hrun.seq (.ofNext h.next)

/-- A joystick slot. -/
theorem joystickSlot (h : LeavesDispatcher g) (j : JoyId) (c : Slot) (m : String) : Commutes g fun s =>
    whenSelected (s.component == c) m (Machine.dispatchOp (Machine.joyPoll j (s.sample j)) s) :=
  .selected (sel := fun s => s.component == c) (fun s => by rw [h.component]) m <|
    .ofRead (f := fun s => s.sample j) (o := fun snap => Machine.dispatchOp (Machine.joyPoll j snap))
      (fun s => by rw [State.sample, h.raw]; rfl) fun snap => h.dispatchOp ((h.joystick j).joyPoll snap)

end LeavesDispatcher

namespace LeavesInterpreter

variable {g : State → State}

theorem interpResolveOp (h : LeavesInterpreter g) (e : ScanEntry) : Commutes g (interpResolveOp e) := by
  have hcalls : Commutes g fun s => Machine.runCalls (resolveCalls s.ip.rel s.ip.ext e) s :=
    .ofRead (f := fun s => resolveCalls s.ip.rel s.ip.ext e) (o := Machine.runCalls) (fun s => by rw [h.ip])
      (.runCalls (h.joystick .l).call)
  exact hcalls.seq (.ofNext fun s => h.setFlags s ⟨false, false⟩)

theorem interpUnrecognizedOp (h : LeavesInterpreter g) (b : Byte) : Commutes g (interpUnrecognizedOp b) :=
  .ofNext fun s => (congrArg (State.emit · _) (h.setFlags s ⟨false, false⟩)).trans ((h.joystick .l).log _ _)

theorem interpRelOp (h : LeavesInterpreter g) : Commutes g interpRelOp :=
  .ofNext fun s => by rw [h.ip]; exact h.setFlags s _

theorem interpExtOp (h : LeavesInterpreter g) : Commutes g interpExtOp :=
  .ofNext fun s => by rw [h.ip]; exact h.setFlags s _

theorem interpByte (h : LeavesInterpreter g) (b : Byte) : Commutes g (interpByte b) := by
  intro s
  unfold Machine.interpByte
  rw [h.cfg]
  split
  · exact h.interpRelOp s
  · exact h.interpExtOp s
  · exact h.interpResolveOp _ s
  · exact h.interpUnrecognizedOp b s

/-- POP followed by an action on the byte and the state. -/
theorem afterPop (h : LeavesInterpreter g) {k : Option Byte → State → Res State} (hk : ∀ r, Commutes g (k r)) :
    Commutes g fun s => andThen (bufPop s) fun p => k p.1 p.2 := by
  intro s
  change andThen (bufPop (g s)) _ = mapNext g (andThen (bufPop s) _)
  rw [h.pop]
  cases bufPop s with
  | next p => exact hk p.1 p.2
  | fault | refused => rfl

theorem interp (h : LeavesInterpreter g) : Commutes g interp :=
  h.afterPop (k := fun r s => match r with | none => .next s | some b => Machine.interpByte b s) fun
    | none => fun _ => rfl
    | some b => h.interpByte b

/-- The interpreter slot. -/
theorem interpreterSlot (h : LeavesInterpreter g) : Commutes g (exec .dispatchInterp) :=
  .selected (sel := fun s => s.component == .interp) (fun s => by rw [h.component]) _ (h.dispatchOp h.interp)

theorem exec_of_isPolled (h : LeavesInterpreter g) : ∀ {i : Instr}, isPolled i = true → Commutes g (exec i)
  | .pop, _ => h.afterPop (k := fun _ s => .next s) fun _ _ => rfl
  | .interpEmpty, _ =>
    .selected (o := .next) (sel := fun s => s.buf.head == s.buf.tail) (fun s => by rw [h.buf]) "INTERP_EMPTY" fun _ => rfl
  | .interpRel, _ => h.interpRelOp
  | .interpExtA, _ | .interpExtB, _ => h.interpExtOp
  | .interpResolve b, _ =>
    .selected (sel := fun s => isResolve (scan s.cfg b)) (fun s => by rw [h.cfg]) "INTERP_RESOLVE" <|
      .ofRead (f := fun s => scan s.cfg b) (o := Machine.interpResolveOp) (fun s => by rw [h.cfg]) h.interpResolveOp
  | .interpUnrecognized b, _ =>
    .selected (sel := fun s => scan s.cfg b == .ignore) (fun s => by rw [h.cfg]) "INTERP_UNRECOGNIZED"
      (h.interpUnrecognizedOp b)
  | .joypollSame j snap, _ => (h.joystick j).sameRow snap
  | .joypollNone j .., _ | .joypollNoneInvalidUd j .., _ | .joypollNoneInvalidLr j .., _ | .joypollU j .., _
  | .joypollD j .., _ | .joypollL j .., _ | .joypollR j .., _ | .joypollUl j .., _ | .joypollUr j .., _
  | .joypollDr j .., _ | .joypollDl j .., _ => (h.joystick j).changeRow rfl
  | .setswitchOn _, _ | .setswitchOff _, _ | .setswitchSentinel .., _ => .setSwitch (h.joystick .l).call _ _
  | .matrixReset, _ => .runCalls (h.joystick .l).call matrixCalls
  | .dispatchJoyL, _ => h.joystickSlot .l .joyL _
  | .dispatchJoyR, _ => h.joystickSlot .r .joyR _
  | .dispatchInterp, _ => h.interpreterSlot

end LeavesInterpreter

/-! The ISR agent's side of the state. -/

/-- The state with another decoder, another buffer where one is given, events logged before, and another schedule. -/
def withSerialSide (d : Decoder) (b : Option Buffer) (l : List Event) (f : List Item → List Item) (s : State) : State :=
  { s with dec := d, buf := b.getD s.buf, evlog := l ++ s.evlog, sched := f s.sched }

theorem leavesDispatcher_withSerialSide (d : Decoder) (b : Option Buffer) (l : List Event) (f : List Item → List Item) :
    LeavesDispatcher (withSerialSide d b l f) where
  joystick _ :=
    { table := fun _ => rfl, prev := fun _ => rfl, call := fun _ _ => rfl, store := fun _ _ => rfl
      log := fun s _ => congrArg (fun evlog => { withSerialSide d b l f s with evlog := evlog }) (List.append_assoc ..) }
  cfg _ := rfl
  slot _ := rfl
  raw _ := rfl
  next _ := rfl

/-- Without another buffer the interpreter does not see the change. -/
theorem leavesInterpreter_withSerialSide (d : Decoder) (l : List Event) (f : List Item → List Item) :
    LeavesInterpreter (withSerialSide d none l f) where
  toLeavesDispatcher := leavesDispatcher_withSerialSide d none l f
  buf _ := rfl
  ip _ := rfl
  setFlags _ _ := rfl
  pop s := by
    by_cases hempty : s.buf.head = s.buf.tail
    · rw [bufPop_empty hempty]
      exact bufPop_empty (s := withSerialSide d none l f s) hempty
    · by_cases hlt : s.buf.head < s.slots
      · rw [bufPop_some hempty hlt]
        exact bufPop_some (s := withSerialSide d none l f s) hempty hlt
      · rw [show bufPop s = .refused .noSuchSlot from (if_neg hempty).trans (if_neg hlt)]
        exact (if_neg hempty).trans (if_neg hlt)

/-! What a polled operation leaves alone. -/

/-- The serial side and the environment's side of the state are the same (R169). -/
structure SameSerialSide (s t : State) : Prop where
  dec : t.dec = s.dec
  mem : t.buf.mem = s.buf.mem
  tail : t.buf.tail = s.buf.tail
  powerUps : t.powerUps = s.powerUps
  cfg : t.cfg = s.cfg
  joyRaw : t.joyRaw = s.joyRaw
  irqEn : t.irqEn = s.irqEn
  fault : t.fault = s.fault
  refused : t.refused = s.refused
  sched : t.sched = s.sched

theorem PolledChange.sameSerialSide {flags : Bool} {s t u : State} (hc : PolledChange flags t u)
    (h : SameSerialSide s t) : SameSerialSide s u := by
  cases hc with
  | pop hpop => rw [bufPop_frame hpop]; exact { h with }
  | call | snapshot | log | slot | setFlags => exact { h with }

theorem sameSerialSide_of_isPolled {i : Instr} {s t : State} (hi : isPolled i = true) (h : exec i s = .next t) :
    SameSerialSide s t :=
  holds_of_changes (fun _ _ hc => hc.sameSerialSide) (changes_of_isPolled hi h)
    ⟨rfl, rfl, rfl, rfl, rfl, rfl, rfl, rfl, rfl, rfl⟩

/-- Settles O22: polled operations do not see the decoder, and no elementary change of theirs touches the serial side. -/
theorem polledOperationsLeaveTheSerialSide : Obligations.PolledOperationsLeaveTheSerialSide := by
  unfold Obligations.PolledOperationsLeaveTheSerialSide
  intro i s hi
  refine ⟨fun d => (leavesInterpreter_withSerialSide d [] id).exec_of_isPolled hi s, fun t hnext => ?_⟩
  obtain ⟨hdec, hmem, htail, hups, hcfg, hraw, hirq, hf, hr, hsched⟩ := sameSerialSide_of_isPolled hi hnext
  exact ⟨hdec, hmem, htail, slotByte_congr hmem hups, hcfg, hraw, hirq, hf, hr, hsched⟩

end Sys2Proof

/-! ### The dispatcher (spec/45 R151 to R154) and the prefix flags over all operations (spec/43 R126, R127) -/

namespace Sys2Proof

open Machine Relation

theorem exec_dispatchJoyL (s : State) : exec .dispatchJoyL s =
    whenSelected (s.component == .joyL) "DISPATCH_JOY_L" (mapNext nextSlot (joyPoll .l (s.sample .l) s)) := rfl

theorem exec_dispatchJoyR (s : State) : exec .dispatchJoyR s =
    whenSelected (s.component == .joyR) "DISPATCH_JOY_R" (mapNext nextSlot (joyPoll .r (s.sample .r) s)) := rfl

theorem exec_dispatchInterp (s : State) : exec .dispatchInterp s =
    whenSelected (s.component == .interp) "DISPATCH_INTERP" (mapNext nextSlot (interp s)) := rfl

theorem mapNext_eq_next {f : State → State} {o : Res State} {t : State} :
    mapNext f o = .next t ↔ ∃ u, o = .next u ∧ f u = t := by
  rw [mapNext, andThen_eq_next]
  simp only [Host.Outcome.next.injEq]

/-! Joystick slots. -/

theorem joyPoll_same {s : State} {j : JoyId} {snap : Snapshot} (h : snap = s.joyPrev.get j) :
    joyPoll j snap s = .next s := if_pos h

/-- JOYPOLL on a snapshot is the row the snapshot selects (R71d, R135, R136). -/
theorem joyPoll_eq_exec (j : JoyId) (snap : Snapshot) (s : State) :
    joyPoll j snap s = exec (decodeSnap j (decide (snap = s.joyPrev.get j)) snap) s := by
  by_cases hsame : snap = s.joyPrev.get j
  · rw [joyPoll_same hsame, decide_eq_true hsame]
    exact (sameSnapshotDoesNothing j snap s hsame).symm
  · obtain ⟨m, hexec⟩ := exec_changeRow (rowSnapshot_decodeSnap j snap) s
    rw [joyPoll, if_neg hsame, decide_eq_false hsame, hexec, bne_iff_ne.2 hsame, whenSelected_true]

/-- JOYPOLL completes on a table without sentinels: the slot stays and the snapshot is stored. -/
theorem joyPoll_completes {s : State} {j : JoyId} (htable : joyTableOk s.cfg j = true) (snap : Snapshot) :
    ∃ t, joyPoll j snap s = .next t ∧ t.slot = s.slot ∧ t.joyPrev.get j = snap := by
  by_cases hsame : snap = s.joyPrev.get j
  · exact ⟨s, joyPoll_same hsame, rfl, hsame.symm⟩
  · exact ⟨_, (if_neg hsame).trans (joyChange_eq htable snap), afterCalls_slot s _, PerJoy.get_put_self _ j snap⟩

/-- The DISPATCH row of a joystick's slot is that joystick's JOYPOLL. -/
theorem exec_joystickSlot {s : State} {j : JoyId} {i : Instr}
    (h : (j = .l ∧ i = .dispatchJoyL ∧ s.component = .joyL) ∨ (j = .r ∧ i = .dispatchJoyR ∧ s.component = .joyR)) :
    exec i s = mapNext nextSlot (joyPoll j (s.sample j) s) := by
  rcases h with ⟨rfl, rfl, hc⟩ | ⟨rfl, rfl, hc⟩
  · rw [exec_dispatchJoyL, beq_iff_eq.2 hc, whenSelected_true]
  · rw [exec_dispatchJoyR, beq_iff_eq.2 hc, whenSelected_true]

/-- Settles O42: the slot runs JOYPOLL on the sampled lines, which is the selected row. -/
theorem joystickSlotRunsTheSelectedRow : Obligations.JoystickSlotRunsTheSelectedRow := by
  unfold Obligations.JoystickSlotRunsTheSelectedRow
  intro s j i hslot
  have hexec := exec_joystickSlot hslot
  constructor
  case left =>
    rw [hexec, joyPoll_eq_exec]
    rfl
  case right =>
    intro htable
    obtain ⟨t, hpoll, hsame, hprev⟩ := joyPoll_completes htable (s.sample j)
    exact ⟨nextSlot t, hexec.trans (mapNext_eq_next.2 ⟨t, hpoll, rfl⟩), congrArg (· + 1) hsame, hprev⟩

/-! The interpreter slot. -/

/-- The sub-operation of a popped byte is the row F-SCAN selects (R71c, R116). -/
theorem interpByte_eq_exec (b : Byte) (s : State) : interpByte b s = exec (decodeScan s.cfg b) s := by
  unfold interpByte decodeScan
  cases hscan : scan s.cfg b with
  | setRelease => rfl
  | setExtended => by_cases hB : b = s.cfg.extCodeB <;> simp only [hB, if_true, if_false] <;> rfl
  | resolve v0 v1 => simp only [exec_interpResolve, hscan, isResolve, whenSelected_true]
  | ignore => simp only [exec_interpUnrecognized, hscan, BEq.rfl, whenSelected_true]; rfl

/-- INTERP pops once and runs the row the result selects (R116). -/
theorem interp_eq_exec {s p : State} {r : Option Byte} (h : bufPop s = .next (r, p)) :
    interp s = exec (decodePop s.cfg r) p := by
  rw [interp, h, andThen_next]
  cases r with
  | none =>
    rcases bufPop_next h with ⟨hempty, heq⟩ | ⟨-, -, heq⟩
    · cases heq
      exact ((prefixesSetOnlyTheirFlag s).1 hempty).symm
    · cases heq
  | some b =>
    rw [decodePop, ← show p.cfg = s.cfg from bufPop_cfg h]
    exact interpByte_eq_exec b p

theorem bufPop_completes {s : State} (h : s.buf.head < s.slots ∨ s.buf.head = s.buf.tail) :
    ∃ r p, bufPop s = .next (r, p) := by
  by_cases hempty : s.buf.head = s.buf.tail
  · exact ⟨_, _, bufPop_empty hempty⟩
  · exact ⟨_, _, bufPop_some hempty (h.resolve_right hempty)⟩

theorem interp_of_empty {s : State} (h : s.buf.head = s.buf.tail) : interp s = .next s := by
  rw [interp, bufPop_empty h, andThen_next]

theorem interp_completes {s : State} (h : s.buf.head < s.slots ∨ s.buf.head = s.buf.tail) : ∃ t, interp s = .next t := by
  obtain ⟨r, p, hpop⟩ := bufPop_completes h
  rw [interp, hpop, andThen_next]
  cases r with
  | none => exact ⟨p, rfl⟩
  | some b => exact interpByte_next b p

theorem exec_interpreterSlot {s : State} (h : s.component = .interp) :
    exec .dispatchInterp s = mapNext nextSlot (interp s) := by
  rw [exec_dispatchInterp, beq_iff_eq.2 h, whenSelected_true]

/-- Settles O43: POP answers, and the row it selects always completes. -/
theorem interpreterSlotRunsTheSelectedRow : Obligations.InterpreterSlotRunsTheSelectedRow := by
  unfold Obligations.InterpreterSlotRunsTheSelectedRow
  intro s hslot hhead
  obtain ⟨r, p, hpop⟩ := bufPop_completes hhead
  obtain ⟨t, ht⟩ := interp_completes hhead
  exact ⟨r, p, t, hpop, interp_eq_exec hpop ▸ ht,
    (exec_interpreterSlot hslot).trans (mapNext_eq_next.2 ⟨t, ht, rfl⟩)⟩

/-! The number of driver calls. -/

/-- An action that answers a next state recorded at most `n` driver calls. -/
def CallsAtMost (n : Nat) (s t : State) : Prop := ∃ calls, t.trace = s.trace ++ calls ∧ calls.length ≤ n

theorem callsAtMost_of_trace_eq {n : Nat} {s t : State} (h : t.trace = s.trace) : CallsAtMost n s t :=
  ⟨[], by rw [h, List.append_nil], Nat.zero_le n⟩

theorem callsAtMost_afterCalls {n : Nat} {s t : State} {cs : List DriverCall} (h : t.trace = (afterCalls s cs).trace)
    (hlen : cs.length ≤ n) : CallsAtMost n s t :=
  ⟨cs.map traceEntry, h.trans (afterCalls_trace s cs), (List.length_map _).trans_le hlen⟩

/-- The change branch makes ten calls (R146). -/
theorem joyCalls_length (cfg : Configuration) (j : JoyId) (snap : Snapshot) : (joyCalls cfg j snap).length = 10 := by
  rw [joyCalls, List.append_assoc, List.length_append, directionCalls_length]
  rfl

theorem joyPoll_callsAtMost {j : JoyId} {snap : Snapshot} {s t : State} (h : joyPoll j snap s = .next t) :
    CallsAtMost 10 s t := by
  unfold joyPoll at h
  split at h
  · cases h
    exact callsAtMost_of_trace_eq rfl
  · rw [(joyChange_next h).2]
    exact callsAtMost_afterCalls rfl (joyCalls_length ..).le

/-- `cfg_resolve_len` (R10): both variants of every byte's entry have at most two addresses. -/
theorem entryAddrs_length {cfg : Configuration} (h : cfgWellFormed cfg = true) (ext : Bit) (b : Byte) :
    (entryAddrs ext (scan cfg b)).length ≤ 2 := by
  have hlen := scan_of_scanEntries_all (f := fun p => lengthAllowed p.2) (passes_of_wellFormed h .resolveLen)
    (fun _ => rfl) b
  cases hscan : scan cfg b with
  | resolve v0 v1 =>
    simp only [hscan, lengthAllowed, Bool.and_eq_true, decide_eq_true_eq] at hlen
    cases ext
    · exact hlen.1
    · exact hlen.2
  | setRelease | setExtended | ignore => exact Nat.zero_le 2

theorem interpByte_callsAtMost {b : Byte} {s t : State} (hwf : cfgWellFormed s.cfg = true)
    (h : interpByte b s = .next t) : CallsAtMost 2 s t := by
  have hlen := entryAddrs_length hwf s.ip.ext b
  unfold interpByte at h
  cases hscan : scan s.cfg b with
  | setRelease | setExtended | ignore =>
    rw [hscan] at h
    cases h
    exact callsAtMost_of_trace_eq rfl
  | resolve v0 v1 =>
    rw [hscan] at h hlen
    cases (interpResolveOp_eq (.resolve v0 v1) s).symm.trans h
    exact callsAtMost_afterCalls rfl ((List.length_map _).trans_le ((List.length_filter_le ..).trans hlen))

theorem interp_callsAtMost {s t : State} (hwf : cfgWellFormed s.cfg = true) (h : interp s = .next t) :
    CallsAtMost 2 s t := by
  obtain ⟨⟨r, p⟩, hpop, ht⟩ := andThen_eq_next.1 h
  have htrace : p.trace = s.trace := by rw [bufPop_frame hpop]
  cases r with
  | none =>
    cases ht
    exact callsAtMost_of_trace_eq htrace
  | some b =>
    obtain ⟨calls, hcalls, hlen⟩ := interpByte_callsAtMost (by rw [show p.cfg = s.cfg from bufPop_cfg hpop]; exact hwf) ht
    exact ⟨calls, htrace ▸ hcalls, hlen⟩

/-- Settles O44: a joystick slot makes the ten calls of a change or none, the interpreter slot those of one entry. -/
theorem dispatchMakesBoundedCalls : Obligations.DispatchMakesBoundedCalls := by
  unfold Obligations.DispatchMakesBoundedCalls
  intro i s t hwf hslot hnext
  rcases hslot with rfl | rfl | rfl
  case inr.inr =>
    obtain ⟨u, hu, rfl⟩ := mapNext_eq_next.1 (whenSelected_eq_next.1 hnext).2
    obtain ⟨calls, hcalls, hlen⟩ := interp_callsAtMost hwf hu
    exact ⟨calls, hcalls, hlen.trans (by decide), fun _ => hlen⟩
  all_goals
    obtain ⟨u, hu, rfl⟩ := mapNext_eq_next.1 (whenSelected_eq_next.1 hnext).2
    obtain ⟨calls, hcalls, hlen⟩ := joyPoll_callsAtMost hu
    exact ⟨calls, hcalls, hlen, nofun⟩

/-! Quiescence. -/

/-- With no unread byte and no joystick changed a DISPATCH step only moves the slot (R154). -/
theorem exec_slot_of_quiescent {s : State} (h : s.Quiescent) :
    exec (decodeSlot s.component) s = .next { s with slot := s.slot + 1 } := by
  obtain ⟨-, hempty, hl, hr, -⟩ := h
  cases hc : s.component with
  | joyL => exact (exec_joystickSlot (.inl ⟨rfl, rfl, hc⟩)).trans (congrArg (mapNext nextSlot) (joyPoll_same hl))
  | joyR => exact (exec_joystickSlot (.inr ⟨rfl, rfl, hc⟩)).trans (congrArg (mapNext nextSlot) (joyPoll_same hr))
  | interp => exact (exec_interpreterSlot hc).trans (congrArg (mapNext nextSlot) (interp_of_empty hempty))

/-- Quiescence depends on the schedule only through the edges still to come. -/
theorem quiescent_of_sched {s : State} (h : s.Quiescent) {rest : List Item} (hsub : ∀ it ∈ rest, it ∈ s.sched) (k : Fin 3) :
    State.Quiescent { s with slot := k, sched := rest } := by
  obtain ⟨hpos, hempty, hl, hr, hedges, hf, hm⟩ := h
  exact ⟨hpos, hempty, hl, hr, List.all_eq_true.2 fun it hit => List.all_eq_true.1 hedges it (hsub it hit), hf, hm⟩

theorem step_of_quiescent {s : State} {rest : List Item} (hrun : s.Running) (h : s.Quiescent)
    (hs : s.sched = .poll :: rest ∨ (s.sched = [] ∧ rest = [])) :
    step s = .next { s with slot := s.slot + 1, sched := rest } ∧
      State.Quiescent { s with slot := s.slot + 1, sched := rest } := by
  have hsub : ∀ it ∈ rest, it ∈ s.sched := by
    rcases hs with hs | ⟨hs, rfl⟩
    · rw [hs]
      exact fun it hit => List.mem_cons_of_mem _ hit
    · exact fun it hit => absurd hit List.not_mem_nil
  refine ⟨?_, quiescent_of_sched h hsub _⟩
  rw [step_poll hrun hs]
  exact exec_slot_of_quiescent (quiescent_of_sched h hsub s.slot)

/-- Settles O45: one step by the slot's component, and any number by induction. -/
theorem quiescentStateOnlyMovesTheSlot : Obligations.QuiescentStateOnlyMovesTheSlot := by
  unfold Obligations.QuiescentStateOnlyMovesTheSlot
  intro s rest hrun hquiet
  refine ⟨step_of_quiescent hrun hquiet, fun n => ?_⟩
  induction n generalizing s with
  | zero =>
    intro hs
    exact ⟨s.slot, by rw [← show s.sched = rest from hs]; rfl⟩
  | succ n ih =>
    intro hs
    obtain ⟨hstep, hquiet'⟩ := step_of_quiescent hrun hquiet (rest := List.replicate n Item.poll ++ rest) (.inl hs)
    obtain ⟨k, hk⟩ := ih { s with slot := s.slot + 1, sched := _ } hrun hquiet' rfl
    exact ⟨k, (run_succ hstep n).trans hk⟩

/-! The prefix flags. -/

theorem PolledChange.ip_eq {s t u : State} (hc : PolledChange false t u) (h : t.ip = s.ip) : u.ip = s.ip := by
  cases hc with
  | pop hpop => rw [bufPop_frame hpop]; exact h
  | setFlags _ hfalse => cases hfalse
  | call | snapshot | log | slot => exact h

/-- An operation outside `mayWriteFlags` leaves the flags (R127). -/
theorem ip_eq_of_not_mayWriteFlags {i : Instr} {s t : State} (h : exec i s = .next t) (hi : mayWriteFlags i = false) :
    t.ip = s.ip := by
  rcases serial_or_polled_or_reset i with hserial | hpolled | rfl
  · rw [(usesOnlySerialState_exec hserial).writes h]
  · exact holds_of_changes (P := fun u => u.ip = s.ip) (fun _ _ hc => hc.ip_eq) (hi ▸ changes_of_isPolled hpolled h) rfl
  · cases hi

/-- One of the two flags was set and no longer is. -/
def ClearsFlag (s t : State) : Prop := (s.ip.rel = true ∧ t.ip.rel = false) ∨ (s.ip.ext = true ∧ t.ip.ext = false)

theorem not_clearsFlag {s t : State} (hrel : s.ip.rel = true → t.ip.rel = true) (hext : s.ip.ext = true → t.ip.ext = true) :
    ¬ClearsFlag s t := by
  rintro (⟨h, h'⟩ | ⟨h, h'⟩)
  · exact absurd (hrel h) (by simp [h'])
  · exact absurd (hext h) (by simp [h'])

/-- A popped byte that clears a flag resolves or is not recognized (R126). -/
theorem interpByte_clearsFlag {b : Byte} {s t : State} (h : interpByte b s = .next t) (hclear : ClearsFlag s t) :
    isResolve (scan s.cfg b) = true ∨ scan s.cfg b = .ignore := by
  unfold interpByte at h
  cases hscan : scan s.cfg b with
  | resolve => exact .inl rfl
  | ignore => exact .inr rfl
  | setRelease =>
    rw [hscan] at h
    cases h
    exact absurd hclear (not_clearsFlag (fun _ => rfl) id)
  | setExtended =>
    rw [hscan] at h
    cases h
    exact absurd hclear (not_clearsFlag id fun _ => rfl)

/-- The interpreter slot clears a flag only by the byte it pops. -/
theorem interp_clearsFlag {s t : State} (h : interp s = .next t) (hclear : ClearsFlag s t) :
    ∃ b p, bufPop s = .next (some b, p) ∧ (isResolve (scan s.cfg b) = true ∨ scan s.cfg b = .ignore) := by
  obtain ⟨⟨r, p⟩, hpop, ht⟩ := andThen_eq_next.1 h
  have hip : p.ip = s.ip := by rw [bufPop_frame hpop]
  have hcfg : p.cfg = s.cfg := bufPop_cfg hpop
  rw [ClearsFlag, ← hip] at hclear
  cases r with
  | none =>
    cases ht
    exact absurd hclear (not_clearsFlag id id)
  | some b => exact ⟨b, p, hpop, hcfg ▸ interpByte_clearsFlag ht hclear⟩

/-- Settles O32: the operations outside the interpreter leave the flags, and the prefixes only set them. -/
theorem onlyResolvedOrUnrecognizedClears : Obligations.OnlyResolvedOrUnrecognizedClears := by
  unfold Obligations.OnlyResolvedOrUnrecognizedClears
  intro i s t hnext
  refine ⟨ip_eq_of_not_mayWriteFlags hnext, fun hclear => ?_⟩
  change ClearsFlag s t at hclear
  cases hwrites : mayWriteFlags i with
  | false =>
    have hip := ip_eq_of_not_mayWriteFlags hnext hwrites
    exact absurd hclear (not_clearsFlag (by rw [hip]; exact id) (by rw [hip]; exact id))
  | true =>
    cases i with
    | interpRel => cases hnext; exact absurd hclear (not_clearsFlag (fun _ => rfl) id)
    | interpExtA | interpExtB => cases hnext; exact absurd hclear (not_clearsFlag id fun _ => rfl)
    | interpResolve b => exact .inl ⟨b, rfl⟩
    | interpUnrecognized b => exact .inr (.inl ⟨b, rfl⟩)
    | reset => exact .inr (.inr (.inl rfl))
    | dispatchInterp =>
      obtain ⟨u, hu, rfl⟩ := mapNext_eq_next.1 (whenSelected_eq_next.1 hnext).2
      exact .inr (.inr (.inr ⟨rfl, interp_clearsFlag hu hclear⟩))
    | _ => cases hwrites

end Sys2Proof

/-! ### Running on (spec/60 R155, R158, R165, R167): the core never halts, and an edge commutes with a slot -/

namespace Sys2Proof

open Machine

/-! The effect of a clock edge. -/

/-- In every state with the serial side of `s₀` the edge leaves the decoder `d`, the buffer `b` where one is given, and the
events `l` logged. -/
def EdgeActs (s₀ : State) (v : Bit) (d : Decoder) (b : Option Buffer) (l : List Event) : Prop :=
  ∀ s : State, s.dec = s₀.dec → (b ≠ none → s.buf = s₀.buf) → s.cfg = s₀.cfg → s.powerUps = s₀.powerUps →
    s.irqEn = true → takeEdge v s = .next { s with dec := d, buf := b.getD s.buf, evlog := s.evlog ++ l }

theorem takeEdge_eq_exec {s : State} {v : Bit} {i : Instr} (hirq : s.irqEn = true)
    (hi : decodeEdge s.dec.pos.toNat v = .ok i) : takeEdge v s = exec i s := by
  rw [takeEdge, if_pos hirq, hi, runDecoded]

theorem takeEdge_last {s : State} {v : Bit} (hirq : s.irqEn = true) (hpos : s.dec.pos = 11#4) :
    takeEdge v s = endFrame v s := by
  rw [takeEdge_eq_exec (i := .edgeStop v) hirq (by rw [hpos]; rfl), exec_edgeStop, beq_iff_eq.2 hpos, whenSelected_true]

/-- A sample before position 11 changes the decoder only. -/
theorem edgeActs_early {s : State} (v : Bit) (hlo : 1 ≤ s.dec.pos.toNat) (hhi : s.dec.pos.toNat ≤ 10) :
    EdgeActs s v (sampled s.dec v) none [] := by
  intro t hdec _ _ _ hirq
  rw [← hdec] at hlo hhi ⊢
  obtain ⟨i, hi, -, hexec⟩ := exec_earlyEdge v hlo hhi
  rw [takeEdge_eq_exec hirq hi, hexec, List.append_nil]
  rfl

/-- A rejected frame is logged. -/
theorem edgeActs_reject {s : State} {v : Bit} (hpos : s.dec.pos = 11#4)
    (hreject : Decoder.accepts { s.dec with stop := v } = false) :
    EdgeActs s v ⟨1#4, 0#8, false, false, 0#4⟩ none [Decoder.framingEvent { s.dec with stop := v }] := by
  intro t hdec _ _ _ hirq
  rw [← hdec] at hpos hreject ⊢
  rw [takeEdge_last hirq hpos, endFrame_of_rejects hreject]
  rfl

/-- PUSH has one effect on all states with the same buffer, capacity and unwritten bytes. -/
theorem bufPush_acts (x : Byte) {s₀ : State} (h : s₀.buf.tail < s₀.slots) : ∃ b l, ∀ s : State, s.buf = s₀.buf →
    s.cfg = s₀.cfg → s.powerUps = s₀.powerUps → bufPush x s = .next { s with buf := b, evlog := s.evlog ++ l } := by
  by_cases hfull : (s₀.buf.tail + 1) % s₀.slots = s₀.buf.head
  case pos =>
    refine ⟨⟨Memory.write s₀.buf.mem s₀.buf.tail x, (s₀.buf.head + 1) % s₀.slots, (s₀.buf.tail + 1) % s₀.slots⟩,
      [.overflow (if s₀.buf.head = s₀.buf.tail then x else s₀.slotByte s₀.buf.head)], fun s hbuf hcfg hups => ?_⟩
    have hslots : s.slots = s₀.slots := by rw [State.slots, hcfg]; rfl
    rw [← hbuf, ← hslots] at h hfull ⊢
    rw [bufPush_of_tail_eq_head h hfull, slotByte_congr (s := s₀) (by rw [hbuf]) hups]
  case neg =>
    refine ⟨⟨Memory.write s₀.buf.mem s₀.buf.tail x, s₀.buf.head, (s₀.buf.tail + 1) % s₀.slots⟩, [],
      fun s hbuf hcfg hups => ?_⟩
    have hslots : s.slots = s₀.slots := by rw [State.slots, hcfg]; rfl
    rw [← hbuf, ← hslots] at h hfull ⊢
    rw [bufPush_of_tail_ne_head h hfull, List.append_nil]

/-- An accepted frame is pushed. -/
theorem edgeActs_accept {s : State} {v : Bit} (hpos : s.dec.pos = 11#4)
    (haccept : Decoder.accepts { s.dec with stop := v } = true) (htail : s.buf.tail < s.slots) :
    ∃ b l, EdgeActs s v ⟨1#4, 0#8, false, false, 0#4⟩ (some b) l := by
  obtain ⟨b, l, hpush⟩ := bufPush_acts s.dec.data htail
  refine ⟨b, l, fun t hdec hbuf hcfg hups hirq => ?_⟩
  have hpush' := hpush t (hbuf nofun) hcfg hups
  rw [← hdec] at hpos haccept hpush'
  rw [takeEdge_last hirq hpos, endFrame_of_accepts haccept, hpush']
  rfl

/-- An edge that does not push acts on the decoder and the log only, and on the log only at position 11. -/
theorem edgeActs_of_not_push {s : State} {v : Bit} (hlo : 1 ≤ s.dec.pos.toNat) (hhi : s.dec.pos.toNat ≤ 11)
    (hno : ¬(s.dec.pos = 11#4 ∧ s.dec.par.toNat % 2 = 1 ∧ s.dec.start = false ∧ v = true)) :
    ∃ d l, EdgeActs s v d none l ∧ (s.dec.pos ≠ 11#4 → l = []) := by
  by_cases hpos : s.dec.pos = 11#4
  case pos =>
    have hreject : Decoder.accepts { s.dec with stop := v } = false :=
      Bool.eq_false_iff.2 fun h => hno ⟨hpos, accepts_iff.1 h⟩
    exact ⟨_, _, edgeActs_reject hpos hreject, fun hne => absurd hpos hne⟩
  case neg =>
    have hne : s.dec.pos.toNat ≠ 11 := fun h => hpos (BitVec.eq_of_toNat_eq h)
    exact ⟨_, _, edgeActs_early v hlo (by omega), fun _ => rfl⟩

/-- Every edge acts in a state that meets the invariant. -/
theorem edgeActs_of_inv {s : State} (h : s.Inv) (v : Bit) : ∃ d b l, EdgeActs s v d b l := by
  obtain ⟨hdec, hbuf, -⟩ := h
  obtain ⟨hlo, hhi, -⟩ := decoderOk_iff.1 hdec
  by_cases hpush : s.dec.pos = 11#4 ∧ s.dec.par.toNat % 2 = 1 ∧ s.dec.start = false ∧ v = true
  case pos =>
    obtain ⟨hpos, haccept⟩ := hpush
    obtain ⟨-, htail, -⟩ := bufferOk_iff.1 hbuf
    have haccepts := (accepts_iff (d := { s.dec with stop := v })).2 haccept
    obtain ⟨b, l, hacts⟩ := edgeActs_accept hpos haccepts htail
    exact ⟨_, _, _, hacts⟩
  case neg =>
    obtain ⟨d, l, hacts, -⟩ := edgeActs_of_not_push hlo hhi hpush
    exact ⟨d, none, l, hacts⟩

/-! Slots. -/

theorem isPolled_decodeSlot (c : Slot) : isPolled (decodeSlot c) = true := by cases c <;> rfl

/-- The current slot's DISPATCH row completes in a state that meets the invariant (R152). -/
theorem slot_completes {s : State} (h : s.Inv) : ∃ t, exec (decodeSlot s.component) s = .next t := by
  obtain ⟨-, hbuf, -, -, -, -, -, hwf⟩ := h
  have joystick {j : JoyId} {i : Instr} (hslot : (j = .l ∧ i = .dispatchJoyL ∧ s.component = .joyL) ∨
      (j = .r ∧ i = .dispatchJoyR ∧ s.component = .joyR)) : ∃ t, exec i s = .next t := by
    obtain ⟨t, ht, -⟩ := (joystickSlotRunsTheSelectedRow s j i hslot).2 (joyTableOk_of_wellFormed hwf j)
    exact ⟨t, ht⟩
  cases hc : s.component with
  | joyL => exact joystick (.inl ⟨rfl, rfl, hc⟩)
  | joyR => exact joystick (.inr ⟨rfl, rfl, hc⟩)
  | interp =>
    obtain ⟨-, -, t, -, -, ht⟩ := interpreterSlotRunsTheSelectedRow s hc (.inl (bufferOk_iff.1 hbuf).1)
    exact ⟨_, ht⟩

theorem running_of_inv {s : State} (h : s.Inv) : s.Running := by
  obtain ⟨-, -, -, -, -, hf, hr, hwf⟩ := h
  exact ⟨hf, hr, hwf⟩

/-! The core never halts. -/

/-- Every item of the spec's own events completes and leaves the rest of the schedule. -/
theorem takeItem_completes {s : State} (h : s.Inv) : ∀ {it : Item}, it.isOwn = true →
    ∃ t, takeItem it s = .next t ∧ t.sched = s.sched
  | .edge v, _ => by
    obtain ⟨d, b, l, hacts⟩ := edgeActs_of_inv h v
    obtain ⟨-, -, -, -, hirq, -⟩ := h
    exact ⟨_, hacts s rfl (fun _ => rfl) rfl rfl hirq, rfl⟩
  | .lostEdge v, _ => by
    obtain ⟨d, b, l, hacts⟩ := edgeActs_of_inv h v
    obtain ⟨-, -, -, -, hirq, -⟩ := h
    change ∃ t, takeLostEdge v s = .next t ∧ _
    unfold takeLostEdge
    split
    · exact ⟨s, rfl, rfl⟩
    · exact ⟨_, hacts s rfl (fun _ => rfl) rfl rfl hirq, rfl⟩
  | .joy j raw, _ => ⟨_, rfl, rfl⟩
  | .poll, _ => by
    obtain ⟨t, ht⟩ := slot_completes h
    exact ⟨t, ht, (sameSerialSide_of_isPolled (isPolled_decodeSlot _) ht).sched⟩
  | .reset, _ => by
    obtain ⟨-, -, -, -, -, -, -, hwf⟩ := h
    exact ⟨_, boot_eq hwf, rfl⟩

/-- Settles O56: each of the spec's own items, and the slot of an empty schedule, completes. -/
theorem noInputHaltsTheCore : Obligations.NoInputHaltsTheCore := by
  unfold Obligations.NoInputHaltsTheCore
  intro s hinv hown
  have hrun := running_of_inv hinv
  cases hs : s.sched with
  | nil =>
    obtain ⟨t, ht⟩ := slot_completes hinv
    refine ⟨t, ?_, ?_⟩
    · rw [step_of_running hrun, runSchedule_nil hs]
      exact ht
    · rw [(sameSerialSide_of_isPolled (isPolled_decodeSlot _) ht).sched, hs]
      rfl
  | cons it rest =>
    rw [hs, List.all_cons, Bool.and_eq_true] at hown
    obtain ⟨t, ht, hsched⟩ := takeItem_completes (s := { s with sched := rest }) hinv hown.1
    exact ⟨t, (step_cons hrun hs).trans ht, hsched ▸ hown.2⟩

/-! An edge and a slot in either order. -/

theorem SameSerialSide.running {s t : State} (h : SameSerialSide s t) (hrun : s.Running) : t.Running := by
  obtain ⟨hf, hr, hwf⟩ := hrun
  exact ⟨h.fault.trans hf, h.refused.trans hr, (congrArg cfgWellFormed h.cfg).trans hwf⟩

theorem run_two {s t u : State} (h : step s = .next t) (h' : step t = .next u) : core.run 2 s = .next u :=
  (run_succ h 1).trans (run_succ h' 0)

section Orders

variable {s t₀ : State} {v : Bit} {d : Decoder} {b : Option Buffer} {l : List Event}

theorem step_of_edgeActs {u : State} {rest : List Item} (hedge : EdgeActs s v d b l) (hrun : u.Running)
    (hs : u.sched = .edge v :: rest) (hdec : u.dec = s.dec) (hbuf : b ≠ none → u.buf = s.buf) (hcfg : u.cfg = s.cfg)
    (hups : u.powerUps = s.powerUps) (hirq : u.irqEn = true) :
    step u = .next { u with dec := d, buf := b.getD u.buf, evlog := u.evlog ++ l, sched := rest } :=
  (step_cons hrun hs).trans (hedge { u with sched := rest } hdec hbuf hcfg hups hirq)

/-- The slot does not see another decoder, events logged before, another schedule, and, where the edge pushes, another
buffer. -/
def SlotLeaves (s : State) (b : Option Buffer) : Prop :=
  ∀ d' b' l' f, (b = none → b' = none) → Commutes (withSerialSide d' b' l' f) (exec (decodeSlot s.component))

/-- The slot in any serial side, from its run on an empty log. -/
theorem SlotLeaves.exec (hslot : SlotLeaves s b) (ht₀ : exec (decodeSlot s.component) { s with evlog := [] } = .next t₀)
    (d' : Decoder) {b' : Option Buffer} (hb : b = none → b' = none) (l' : List Event) (rest : List Item) :
    Machine.exec (decodeSlot s.component) { s with dec := d', buf := b'.getD s.buf, evlog := l', sched := rest } =
      .next (withSerialSide d' b' l' (fun _ => rest) t₀) := by
  have hrun := (hslot d' b' l' (fun _ => rest) hb { s with evlog := [] }).trans (congrArg (mapNext _) ht₀)
  rw [withSerialSide, List.append_nil] at hrun
  exact hrun

theorem run_edge_then_slot (hinv : s.Inv) (hedge : EdgeActs s v d b l) (hslot : SlotLeaves s b)
    (ht₀ : exec (decodeSlot s.component) { s with evlog := [] } = .next t₀) (rest : List Item) :
    core.run 2 { s with sched := .edge v :: .poll :: rest } =
      .next (withSerialSide d b (s.evlog ++ l) (fun _ => rest) t₀) := by
  have hrun := running_of_inv hinv
  obtain ⟨-, -, -, -, hirq, -⟩ := hinv
  have hfirst := step_of_edgeActs (u := { s with sched := .edge v :: .poll :: rest }) hedge hrun rfl rfl (fun _ => rfl)
    rfl rfl hirq
  have hsecond := step_poll (s := { s with dec := d, buf := b.getD s.buf, evlog := s.evlog ++ l, sched := .poll :: rest })
    hrun (.inl rfl)
  exact run_two hfirst (hsecond.trans (hslot.exec ht₀ d id (s.evlog ++ l) rest))

theorem run_slot_then_edge (hinv : s.Inv) (hedge : EdgeActs s v d b l) (hslot : SlotLeaves s b)
    (ht₀ : exec (decodeSlot s.component) { s with evlog := [] } = .next t₀) (rest : List Item) :
    core.run 2 { s with sched := .poll :: .edge v :: rest } =
      .next { t₀ with dec := d, buf := b.getD t₀.buf, evlog := s.evlog ++ t₀.evlog ++ l, sched := rest } := by
  have hrun := running_of_inv hinv
  obtain ⟨-, -, -, -, hirq, -⟩ := hinv
  have hsame := sameSerialSide_of_isPolled (isPolled_decodeSlot _) ht₀
  have hslot_first := hslot.exec (b' := b.map fun _ => s.buf) ht₀ s.dec (by rintro rfl; rfl) s.evlog (.edge v :: rest)
  have hold : (b.map fun _ => s.buf).getD s.buf = s.buf := by cases b <;> rfl
  rw [hold] at hslot_first
  have hfirst := (step_poll (s := { s with sched := .poll :: .edge v :: rest }) hrun (.inl rfl)).trans hslot_first
  have hnew : b.getD ((b.map fun _ => s.buf).getD t₀.buf) = b.getD t₀.buf := by cases b <;> rfl
  have hsecond := step_of_edgeActs
    (u := withSerialSide s.dec (b.map fun _ => s.buf) s.evlog (fun _ => .edge v :: rest) t₀) hedge (hsame.running hrun)
    rfl rfl (fun hb => by obtain ⟨b₁, rfl⟩ := Option.ne_none_iff_exists'.1 hb; rfl) hsame.cfg hsame.powerUps
    (hsame.irqEn.trans hirq)
  rw [← hnew]
  exact run_two hfirst hsecond

/-- An edge and the current slot in either order, where the slot does not see what the edge changes: the same state, but for
the order of the events. -/
theorem edge_commutes_with_slot (hinv : s.Inv) (hedge : EdgeActs s v d b l) (hslot : SlotLeaves s b) (rest : List Item) :
    ∃ t u, core.run 2 { s with sched := .edge v :: .poll :: rest } = .next t ∧
      core.run 2 { s with sched := .poll :: .edge v :: rest } = .next u ∧
      { t with evlog := [] } = { u with evlog := [] } ∧ t.evlog.Perm u.evlog ∧ (l = [] → t = u) := by
  obtain ⟨t₀, ht₀⟩ := slot_completes (s := { s with evlog := [] }) hinv
  refine ⟨_, _, run_edge_then_slot hinv hedge hslot ht₀ rest,
    run_slot_then_edge hinv hedge hslot ht₀ rest, rfl, ?perm, ?same⟩
  case perm =>
    change (s.evlog ++ l ++ t₀.evlog).Perm (s.evlog ++ t₀.evlog ++ l)
    rw [List.append_assoc, List.append_assoc]
    exact List.perm_append_comm.append_left s.evlog
  case same =>
    rintro rfl
    rw [withSerialSide, List.append_nil, List.append_nil]

end Orders

theorem slotLeaves_joystick {s : State} (h : s.component ≠ .interp) (b : Option Buffer) : SlotLeaves s b := by
  intro d' b' l' f _
  have hleaves := leavesDispatcher_withSerialSide d' b' l' f
  cases hc : s.component with
  | joyL => exact hleaves.joystickSlot .l .joyL _
  | joyR => exact hleaves.joystickSlot .r .joyR _
  | interp => exact absurd hc h

theorem slotLeaves_interpreter (s : State) : SlotLeaves s none := by
  intro d' b' l' f hb
  rw [hb rfl]
  exact (leavesInterpreter_withSerialSide d' l' f).exec_of_isPolled (isPolled_decodeSlot _)

/-- Settles O59: a joystick slot sees nothing of the serial side, whatever the edge does to it. -/
theorem edgeCommutesWithAJoystickSlot : Obligations.EdgeCommutesWithAJoystickSlot := by
  unfold Obligations.EdgeCommutesWithAJoystickSlot
  intro s v rest hinv hslot
  obtain ⟨d, b, l, hedge⟩ := edgeActs_of_inv hinv v
  obtain ⟨t, u, ht, hu, hsame, hperm, -⟩ := edge_commutes_with_slot hinv hedge (slotLeaves_joystick hslot b) rest
  exact ⟨t, u, ht, hu, hsame, hperm⟩

/-- Settles O60: an edge that does not push leaves the buffer, which is all that the interpreter sees of the serial side. -/
theorem onlyAStopSampleRacesWithAPop : Obligations.OnlyAStopSampleRacesWithAPop := by
  unfold Obligations.OnlyAStopSampleRacesWithAPop
  intro s v rest hinv _ hno
  obtain ⟨hlo, hhi, -⟩ := decoderOk_iff.1 hinv.1
  obtain ⟨d, l, hedge, hlog⟩ := edgeActs_of_not_push hlo hhi hno
  obtain ⟨t, u, ht, hu, hsame, hperm, heq⟩ := edge_commutes_with_slot hinv hedge (slotLeaves_interpreter s) rest
  exact ⟨t, u, ht, hu, hsame, hperm, fun hpos => heq (hlog hpos)⟩

end Sys2Proof
